-- ==== Sys2Proof/Word.lean ====
section
/-!
DEFINITION. The words of the MS8607-PT block (spec/00_scope.md R8): only the values the spec treats as bits.
-/

namespace Sys2Proof

/-- A bus byte (R61, R62) or a host command word (R99). -/
abbrev Byte := BitVec 8

/-- A PROM word or a calibration coefficient (R8, R20, R21). -/
abbrev Word16 := BitVec 16

/-- A raw ADC result, unsigned (R8, R23). -/
abbrev Raw24 := BitVec 24

/-- `s64`: a two's-complement value of the compensation pipeline (R9, R25). -/
abbrev S64 := BitVec 64

/-- A CRC-4 value (R8, R22). -/
abbrev Nibble := BitVec 4

/-- The bit pattern of a value of format `FLOAT_FMT` (R26), in the low bits of 64 (log 12). -/
abbrev FloatReg := BitVec 64

end Sys2Proof
end

