-- ==== Sys2Proof/Config.lean ====
section
/-!
DEFINITION. What an implementation fixes (the parameters of spec/00_scope.md R7) and the free values: opaque constants
that no proof can see, so that a claim holds whatever they are.
-/

namespace Sys2Proof

/-- FLOAT_FMT (R7, D17): DOC0 names no format. The two IEEE 754 formats round to nearest even; the results of any other
format are free (`Config.roundOther`, log 12). -/
inductive FloatFmt where
  | binary32
  | binary64
  | other (k : Nat)
  deriving DecidableEq, Repr, Inhabited

/-- The static metadata of a channel that DOC0 lists and does not print (R42, META_T and META_P), less its `kind`, which
is fixed. The three physical values are kept as bit patterns: nothing computes with them. -/
structure MetaParams where
  name : String
  sensorId : Nat
  minValue : FloatReg
  maxValue : FloatReg
  resolution : FloatReg
  deriving DecidableEq, Repr, Inhabited

/-- The parameters of R7. PROM_STRIDE, PROM_WORDS and T_SETTLE_MS are no parameters: DOC0 prints them. -/
structure Params where
  /-- DEV_ADDR: belongs to the transport (N2); it names the device in BusOpen (R60) -/
  devAddr : BitVec 7
  promBase : Byte
  cmdReset : Byte
  cmdAdcRead : Byte
  flagTemp : Byte
  flagPress : Byte
  /-- OSR_ORD, in the 8 bits this model gives OSR (log 5) -/
  osrOrd : Byte
  floatFmt : FloatFmt
  /-- INIT_ABORT_EARLY (D12) -/
  initAbortEarly : Bool
  /-- INSTANCE_ID_W (D24) -/
  instanceIdW : Nat
  metaT : MetaParams
  metaP : MetaParams
  deriving DecidableEq, Repr, Inhabited

/-- The parameters of the machine at hand: R7 leaves every one of them open (log 2). -/
opaque Config.params : Params

/-- The success flag the transport returns for transaction `n` (R64), where no script gives it (log 9). -/
opaque Config.busOk (n : Nat) : Bool

/-- Byte `j` of what the transport returns for transaction `n`, where nothing else gives it (R64, U4, log 9). -/
opaque Config.busByte (n j : Nat) : Byte

/-- What a PROM buffer word holds after transaction `n` failed to read it: "unspecified" (R141, U4, log 14). -/
opaque Config.lostWord (n : Nat) : Word16

/-- Draw `n` of the timestamp: "a free input under no law, not even monotonicity" (R212, U12, log 10). -/
opaque Config.now (n : Nat) : Nat

/-- `round_FLOAT_FMT` of `centi / 100` in a format that is neither binary32 nor binary64 (U15, log 12). -/
opaque Config.roundOther (k : Nat) (centi : Int) : FloatReg

end Sys2Proof
end

