-- ==== Sys2Proof/Syntax.lean ====
section
/-!
DEFINITION. The operations of the block (spec/30_encoding.md R90): one constructor per row of spec/opcode_table.json.
-/

namespace Sys2Proof

/-- The two measurement channels (R12, R42); also the kind of a record ("typed", R109). -/
inductive Channel where
  | temperature
  | pressure
  deriving DecidableEq, Repr, Inhabited

/-- One call of the host: the command word of R99 and the operands that travel beside it (R100), which only INIT reads. -/
structure HostCall where
  /-- the HOSTOP8 word -/
  word : Byte
  /-- `busHandle`, an opaque handle: the spec gives it no width and never computes with it -/
  bus : Nat
  /-- `instanceId`, of the parameter INSTANCE_ID_W bits (WellFormed checks it, log 6) -/
  ident : Nat
  deriving DecidableEq, Repr, Inhabited

/-- Why a host command word is reserved (R102). -/
inductive ReservedWord where
  /-- bits 1:0 are not zero -/
  | lowBitsSet
  /-- `op` = 7 -/
  | opSeven
  /-- `op` is not 2 and one of bits 4:2 is set -/
  | wantBitsOutsideMeasure
  deriving DecidableEq, Repr, Inhabited

/-- The seventeen operations (R90). -/
inductive Instr where
  /-- `RESET` (R227) -/
  | reset
  /-- `INIT bus, id` (R226) -/
  | init (bus ident : Nat)
  /-- `MEASURE p, t, h` (R228): wantPressure, wantTemperature, wantHumidity -/
  | measure (p t h : Bool)
  /-- `GETEVT.T` (R210) -/
  | getevtT
  /-- `GETEVT.P` (R211) -/
  | getevtP
  /-- `GETMETA.T` (R214) -/
  | getmetaT
  /-- `GETMETA.P` (R215) -/
  | getmetaP
  /-- `CRC4.CHK` with its operand EXP (R120) -/
  | crc4Chk (expd : Nibble)
  /-- `PROM.LOAD` (R140) -/
  | promLoad
  /-- `CONV.SEQ` (R155) -/
  | convSeq
  /-- `COMP` (R175) -/
  | comp
  /-- `EVT.FILL ch` (R212) -/
  | evtFill (ch : Channel)
  /-- `CMD.RESET` (R166) -/
  | cmdReset
  /-- `CMD.PROMRD i`, i = 0 to 6 (R141) -/
  | cmdPromrd (i : Fin 7)
  /-- `CMD.CONV.T` (R157) -/
  | cmdConvT
  /-- `CMD.CONV.P` (R162) -/
  | cmdConvP
  /-- `CMD.ADCRD` into `D_T` or `D_P` (R159, R160, R164) -/
  | cmdAdcrd (dest : Channel)
  deriving DecidableEq, Repr, Inhabited

/-- The three layers of R90. -/
inductive Layer where
  | host
  | unit
  | bus
  deriving DecidableEq, Repr, Inhabited

/-- The layer of an operation (R90). -/
def Instr.layer : Instr → Layer
  | .reset | .init _ _ | .measure _ _ _ | .getevtT | .getevtP | .getmetaT | .getmetaP => .host
  | .crc4Chk _ | .promLoad | .convSeq | .comp | .evtFill _ => .unit
  | .cmdReset | .cmdPromrd _ | .cmdConvT | .cmdConvP | .cmdAdcrd _ => .bus

end Sys2Proof
end

