-- ==== Sys2Proof/Machine/State.lean ====
section
/-!
DEFINITION. The state of the block: the registers of spec/10_state.md, what the host and the environment hold for it, and
the reasons a step can stop. Plain data throughout. The block has no memory (R45, log 13).
-/

namespace Sys2Proof.Machine

/-! ### Register groups -/

/-- The PROM buffer `W[0..7]` (R20): `w0` to `w6` hold the words read, `w7` the synthetic zero word. -/
structure PromBuf where
  w0 : Word16
  w1 : Word16
  w2 : Word16
  w3 : Word16
  w4 : Word16
  w5 : Word16
  w6 : Word16
  w7 : Word16
  deriving DecidableEq, Repr, Inhabited

/-- `C1` to `C6` (R21). -/
structure Coeffs where
  c1 : Word16
  c2 : Word16
  c3 : Word16
  c4 : Word16
  c5 : Word16
  c6 : Word16
  deriving DecidableEq, Repr, Inhabited

/-- The working registers of the CRC validator (R24): REM, CNT, NBIT, SAVE0, EXP. -/
structure CrcRegs where
  remd : Word16
  cnt : Nibble
  nbit : Nibble
  save0 : Word16
  expd : Nibble
  deriving DecidableEq, Repr, Inhabited

/-- The pipeline registers of the compensation engine (R25). -/
structure Pipe where
  dT : S64
  temp : S64
  t2 : S64
  off2 : S64
  sens2 : S64
  off : S64
  sens : S64
  p : S64
  tout : S64
  deriving DecidableEq, Repr, Inhabited

/-- A CalibratedReading with the integers it is computed from: T_CENTI, P_CENTI, T_READ, P_READ (R26). -/
structure Reading where
  tCenti : S64
  pCenti : S64
  tRead : FloatReg
  pRead : FloatReg
  deriving DecidableEq, Repr, Inhabited

/-- EVTREC, the measurement record (R109): these four fields and no other. -/
structure EvtRec where
  kind : Channel
  sensorId : Nat
  timestamp : Nat
  value : FloatReg
  deriving DecidableEq, Repr, Inhabited

/-- A channel descriptor CH_T or CH_P (R42). -/
structure ChanMeta where
  kind : Channel
  params : MetaParams
  deriving DecidableEq, Repr, Inhabited

/-- Which records the MEASURE in progress fills (R231). `wantHumidity` is not kept: it has no effect of any kind (R230). -/
structure Want where
  p : Bool
  t : Bool
  deriving DecidableEq, Repr, Inhabited

/-- The states of the sequencer (R31). -/
inductive SeqState where
  | idle
  | rstCmd
  | iniOpen
  | iniProm (i : Fin 7)
  | iniCrc
  | iniCommit
  | meaTStart
  | meaTWait
  | meaTRead
  | meaPStart
  | meaPWait
  | meaPRead
  | meaComp
  | meaCommit
  deriving DecidableEq, Repr, Inhabited

/-! ### The bus as the block sees it -/

/-- A transaction the block requests (R60 to R62, R69). A write carries exactly one byte, a command byte (R61). -/
inductive Request where
  /-- `BusOpen()` on the adopted transport, to the device at DEV_ADDR -/
  | busOpen (handle : Nat) (dev : BitVec 7)
  /-- `BusWrite([cmd])` -/
  | busWrite (cmd : Byte)
  /-- `BusWriteRead([cmd], n)` -/
  | busWriteRead (cmd : Byte) (n : Nat)
  deriving DecidableEq, Repr, Inhabited

/-- What the transport answers: the success flag, and the bytes read, first received first (R62). -/
structure Answer where
  ok : Bool
  data : List Byte
  deriving DecidableEq, Repr, Inhabited

/-- An observable event (R70): a transaction with its answer, or a delay. -/
inductive Event where
  | txn (r : Request) (a : Answer)
  | delay (ms : Nat)
  deriving DecidableEq, Repr, Inhabited

/-- The ideal sensor of R81: its PROM, its ADC result, the raw values its conversions give, and the numbers of the
transactions that fail (counted from 0 since power-on, log 9). -/
structure Sensor where
  prom : Vector Word16 7
  adc : Raw24
  rawT : Raw24
  rawP : Raw24
  fails : List Nat
  deriving DecidableEq, Repr, Inhabited

/-- Who answers the bus (R46, R64): a list of answers, first used first, and after its end the free oracle; or the ideal
sensor (R81). -/
inductive Env where
  | script (answers : List Answer)
  | ideal (sensor : Sensor)
  deriving DecidableEq, Repr, Inhabited

/-! ### Power-on values -/

/-- The registers to which R50 gives no power-on value, and what the host supplied beside them. -/
structure PowerOn where
  w : PromBuf
  coef : Coeffs
  crcn : Nibble
  rawT : Raw24
  rawP : Raw24
  crc : CrcRegs
  pipe : Pipe
  cache : Reading
  compRet : Reading
  status : Bool
  crcOk : Bool
  osr : Byte
  instanceId : Nat
  busHandle : Nat
  chT : ChanMeta
  chP : ChanMeta
  want : Want
  recT : EvtRec
  recP : EvtRec
  recH : EvtRec
  deriving DecidableEq, Repr, Inhabited

end Sys2Proof.Machine

/-- What the registers hold after power-on: "a value it assumes nothing of; it must not pick zero" (R50, U11, log 3). -/
opaque Sys2Proof.Config.powerOn : Sys2Proof.Machine.PowerOn

namespace Sys2Proof.Machine

/-! ### The state -/

/-- The state of the block. The first group are the spec's registers, the second what the spec implies of an operation in
progress and of the host, the third the environment the model runs in. -/
@[ext]
structure State where
  /-- the constants of R43 and parameters of R7; no operation writes them -/
  cfg : Params
  /-- `SEQ` (R30): this block's program counter -/
  seq : SeqState
  /-- `W[0..7]` (R20) -/
  w : PromBuf
  /-- `C1..C6` (R21) -/
  coef : Coeffs
  /-- `CRCN` (R22) -/
  crcn : Nibble
  /-- `D_T` (R23) -/
  rawT : Raw24
  /-- `D_P` (R23) -/
  rawP : Raw24
  /-- `REM`, `CNT`, `NBIT`, `SAVE0`, `EXP` (R24) -/
  crc : CrcRegs
  /-- the pipeline registers (R25) -/
  pipe : Pipe
  /-- `T_CENTI`, `P_CENTI`, `T_READ`, `P_READ` (R26): the latest-reading cache -/
  cache : Reading
  /-- `INITIALIZED` (R35) -/
  initialized : Bool
  /-- `BUS_OPEN` (R36) -/
  busOpen : Bool
  /-- `STATUS` (R37) -/
  status : Bool
  /-- `CRC_OK` (R38) -/
  crcOk : Bool
  /-- `OSR` (R40) -/
  osr : Byte
  /-- `INSTANCE_ID` (R41) -/
  instanceId : Nat
  /-- the transport the block owns (R36, R226) -/
  busHandle : Nat
  /-- `CH_T` (R42) -/
  chT : ChanMeta
  /-- `CH_P` (R42) -/
  chP : ChanMeta
  /-- the result `r` of COMP until MEASURE commits it (R228, R229, log 7) -/
  compRet : Reading
  /-- the want flags of the MEASURE in progress (R228, R231, log 7) -/
  want : Want
  /-- the host's temperature record (R231) -/
  recT : EvtRec
  /-- the host's pressure record (R231) -/
  recP : EvtRec
  /-- the host's humidity record, which nothing writes (R230) -/
  recH : EvtRec
  /-- the bit the last operation returned to its caller (R108, log 8) -/
  ret : Option Bool
  /-- the record the last GETEVT or EVT.FILL returned (R210, R212, log 8) -/
  evtOut : Option EvtRec
  /-- the record the last GETMETA returned (R214, log 8) -/
  metaOut : Option ChanMeta
  /-- the calls the host will issue, each when the block is back in IDLE (R33, R99, log 8) -/
  pending : List HostCall
  /-- the event trace, oldest first (R70) -/
  trace : List Event
  /-- who answers the bus (R64, R81, log 9) -/
  env : Env
  /-- transactions so far: the index of the next answer of the free oracle (log 9) -/
  txn : Nat
  /-- timestamps drawn so far (R212, log 10) -/
  stamps : Nat
  /-- the index in the trace of the collaborator call that never returns, if there is one (U9, log 11) -/
  hangAt : Option Nat
  deriving DecidableEq, Repr

/-! ### Why a step stops -/

/-- Faults: the machine stops for good. -/
inductive Fault where
  /-- A collaborator call never returns (U9, R253: "the block stays out of IDLE for good"). Raised by `finish`, for every
  operation that has an event at `hangAt`. Safe: nothing is claimed of the state such a run is stuck in. -/
  | collaboratorHang
  deriving DecidableEq, Repr

/-- Refusals: the spec gives the operation no meaning in this state, or the call no meaning at all. -/
inductive Refusal where
  /-- An operation that has no meaning in this model yet: raised by `exec` alone; no arm raises it. Safe. -/
  | notModelled (mnemonic : String)
  /-- A host operation while SEQ is not IDLE (R33, U7). Raised by the host operations. Safe: nothing can be claimed of it. -/
  | busy
  /-- MEASURE, GETEVT or GETMETA while INITIALIZED = 0 (R232, R210, R214, U1, U6). Raised by these. Safe. -/
  | notInitialized
  /-- RESET while BUS_OPEN = 0 (R227, U5). Raised by RESET. Safe. -/
  | transportNotOpen
  /-- A reserved host command word (R102, U8). Raised by `step`. Safe. -/
  | reservedHostWord (why : ReservedWord)
  /-- A side operand wider than its parameter width, which no host can pass (R7, R100, log 6). Raised by `step`. Safe. -/
  | operandTooWide
  deriving DecidableEq, Repr

/-! ### Reset -/

/-- The block right after power-on (R50, R280): SEQ = IDLE, INITIALIZED = 0, BUS_OPEN = 0, every other register
unspecified. Nothing has been returned, no event has happened, no call is pending (R281). -/
def State.reset : State where
  cfg := Config.params
  seq := .idle
  w := Config.powerOn.w
  coef := Config.powerOn.coef
  crcn := Config.powerOn.crcn
  rawT := Config.powerOn.rawT
  rawP := Config.powerOn.rawP
  crc := Config.powerOn.crc
  pipe := Config.powerOn.pipe
  cache := Config.powerOn.cache
  initialized := false
  busOpen := false
  status := Config.powerOn.status
  crcOk := Config.powerOn.crcOk
  osr := Config.powerOn.osr
  instanceId := Config.powerOn.instanceId
  busHandle := Config.powerOn.busHandle
  chT := Config.powerOn.chT
  chP := Config.powerOn.chP
  compRet := Config.powerOn.compRet
  want := Config.powerOn.want
  recT := Config.powerOn.recT
  recP := Config.powerOn.recP
  recH := Config.powerOn.recH
  ret := none
  evtOut := none
  metaOut := none
  pending := []
  trace := []
  env := .script []
  txn := 0
  stamps := 0
  hangAt := none

end Sys2Proof.Machine
end

