-- ==== Sys2Proof/Machine/Float.lean ====
section
/-!
DEFINITION. `round_FLOAT_FMT(exact(c / 100))` (spec/43_compensation_engine.md R192): an exact quotient rounded once, to
nearest with ties to even, into an IEEE 754 interchange format (R7, D17; log 12). All in Nat and Int.
-/

namespace Sys2Proof.Machine

/-- floor(log2(num / den)) for positive num and den. -/
def floorLog2 (num den : Nat) : Int :=
  let e : Int := (num.log2 : Int) - (den.log2 : Int)
  if den * 2 ^ e.toNat ≤ num * 2 ^ (-e).toNat then e else e - 1

/-- num / den rounded to an integer, to nearest, ties to even. -/
def roundHalfEven (num den : Nat) : Nat :=
  let q := num / den
  let r := num % den
  if den < 2 * r ∨ (2 * r = den ∧ q % 2 = 1) then q + 1 else q

/-- The bits below the sign of num / den rounded to a format with `eb` exponent bits and `mb` fraction bits. `x` is the
exponent of the last place kept; a significand that rounds up to the next power of two carries into the exponent field by
the sum. A result too large for the format is its infinity. -/
def roundMagnitude (eb mb num den : Nat) : Nat :=
  if num = 0 then 0
  else
    let emin : Int := 2 - 2 ^ (eb - 1)
    let e : Int := max (floorLog2 num den) emin
    let x : Int := e - mb
    let q := roundHalfEven (num * 2 ^ (-x).toNat) (den * 2 ^ x.toNat)
    let bits := (e - emin).toNat * 2 ^ mb + q
    let inf := (2 ^ eb - 1) * 2 ^ mb
    if inf ≤ bits then inf else bits

/-- centi / 100 in the format with `eb` exponent and `mb` fraction bits, as a bit pattern; zero is the positive zero. -/
def roundIeee (eb mb : Nat) (centi : Int) : FloatReg :=
  BitVec.ofNat 64 ((if centi < 0 then 2 ^ (eb + mb) else 0) + roundMagnitude eb mb centi.natAbs 100)

/-- `round_FLOAT_FMT(exact(centi / 100))` (R192). -/
def roundCenti (fmt : FloatFmt) (centi : Int) : FloatReg :=
  match fmt with
  | .binary32 => roundIeee 8 23 centi
  | .binary64 => roundIeee 11 52 centi
  | .other k => Config.roundOther k centi

end Sys2Proof.Machine
end

