-- ==== Sys2Proof/Decode.lean ====
section
/-!
DEFINITION. The host command word (HOSTOP8, R99, R102): decoder and encoder; and the command bytes the block sends
(CMD8, R92 to R95), which it only produces (R91). The two spaces overlap and have nothing to do with each other, so the
decoder reads HOSTOP8 alone (log 4).
-/

namespace Sys2Proof

/-! ### HOSTOP8 -/

/-- Bits 7:5 of the host command word (R99). -/
def hostOp (b : Byte) : BitVec 3 := b.extractLsb' 5 3

/-- `wp`, bit 4 (R99). -/
def wantPBit (b : Byte) : Bool := b.getLsbD 4

/-- `wt`, bit 3 (R99). -/
def wantTBit (b : Byte) : Bool := b.getLsbD 3

/-- `wh`, bit 2 (R99). -/
def wantHBit (b : Byte) : Bool := b.getLsbD 2

/-- An operation other than MEASURE: bits 4:2 must be 0 (R102). -/
def withoutWants (b : Byte) (i : Instr) : Except ReservedWord Instr :=
  if b.extractLsb' 2 3 = 0#3 then .ok i else .error .wantBitsOutsideMeasure

/-- The operation a host call asks for, or why its word is reserved (R99, R102). -/
def decodeHost (c : HostCall) : Except ReservedWord Instr :=
  if c.word.extractLsb' 0 2 ≠ 0#2 then .error .lowBitsSet
  else match (hostOp c.word).toNat with
    | 0 => withoutWants c.word .reset
    | 1 => withoutWants c.word (.init c.bus c.ident)
    | 2 => .ok (.measure (wantPBit c.word) (wantTBit c.word) (wantHBit c.word))
    | 3 => withoutWants c.word .getevtT
    | 4 => withoutWants c.word .getevtP
    | 5 => withoutWants c.word .getmetaT
    | 6 => withoutWants c.word .getmetaP
    | _ => .error .opSeven

/-- The word of MEASURE, `010pth00` (R99). -/
def measureWord (p t h : Bool) : Byte :=
  2#3 ++ BitVec.ofBool p ++ BitVec.ofBool t ++ BitVec.ofBool h ++ 0#2

/-- The host call that asks for `i`; unit and bus operations have none (R90, R99). -/
def encodeHost : Instr → Option HostCall
  | .reset => some ⟨0x00#8, 0, 0⟩
  | .init bus ident => some ⟨0x20#8, bus, ident⟩
  | .measure p t h => some ⟨measureWord p t h, 0, 0⟩
  | .getevtT => some ⟨0x60#8, 0, 0⟩
  | .getevtP => some ⟨0x80#8, 0, 0⟩
  | .getmetaT => some ⟨0xA0#8, 0, 0⟩
  | .getmetaP => some ⟨0xC0#8, 0, 0⟩
  | .crc4Chk _ | .promLoad | .convSeq | .comp | .evtFill _ => none
  | .cmdReset | .cmdPromrd _ | .cmdConvT | .cmdConvP | .cmdAdcrd _ => none

/-- What the decoder reads from a word of `nbits` bits: HOSTOP8 words have 8; the side operands are zero (R100). -/
def decodeTableWord (nbits w : Nat) : Option Instr :=
  if nbits = 8 then
    match decodeHost ⟨BitVec.ofNat 8 w, 0, 0⟩ with
    | .ok i => some i
    | .error _ => none
  else none

/-! ### CMD8 -/

/-- `((OSR * 2) | flag)[7:0]` (R93): the ordinal shifted left by one bit, or-ed with the channel's start flag. -/
def convByte (osr flag : Byte) : Byte := (osr <<< 1) ||| flag

/-- `(PROM_BASE + PROM_STRIDE * i)[7:0]`, PROM_STRIDE = 2 (R94). -/
def promrdByte (base : Byte) (i : Fin 7) : Byte := base + BitVec.ofNat 8 (2 * i.val)

/-- The command byte a bus operation sends when register OSR holds `osr` (R92 to R95). -/
def encodeCmd8 (cfg : Params) (osr : Byte) : Instr → Option Byte
  | .cmdReset => some cfg.cmdReset
  | .cmdPromrd i => some (promrdByte cfg.promBase i)
  | .cmdConvT => some (convByte osr cfg.flagTemp)
  | .cmdConvP => some (convByte osr cfg.flagPress)
  | .cmdAdcrd _ => some cfg.cmdAdcRead
  | .reset | .init _ _ | .measure _ _ _ | .getevtT | .getevtP | .getmetaT | .getmetaP => none
  | .crc4Chk _ | .promLoad | .convSeq | .comp | .evtFill _ => none

end Sys2Proof
end

