-- ==== Sys2Proof/Machine/Operands.lean ====
section
/-!
DEFINITION. Operand assembly (spec/30_encoding.md R101): every way the block forms a word from bytes, a field from a word,
or an s64 from a register. Nothing is sign-extended anywhere (R101, C11).
-/

namespace Sys2Proof.Machine

/-! ### Constants DOC0 prints (R7, R43) -/

/-- T_SETTLE_MS (R158). -/
def settleMs : Nat := 18

/-- The indices of the PROM words in the order they are read (R141); PROM_WORDS = 7. -/
def promIndices : List (Fin 7) := [0, 1, 2, 3, 4, 5, 6]

/-- The length of a PROM word read (R69). -/
def promReadLen : Nat := 2

/-- The length of an ADC result read (R69). -/
def adcReadLen : Nat := 3

/-! ### Bytes to words -/

/-- `{data[0], data[1]}`, big-endian (R65). -/
def promWord (data : List Byte) : Word16 := data.getD 0 0 ++ data.getD 1 0

/-- `{data[0], data[1], data[2]}`, big-endian (R66). -/
def adcWord (data : List Byte) : Raw24 := data.getD 0 0 ++ data.getD 1 0 ++ data.getD 2 0

/-- The two bytes of a word in bus order (R65). -/
def wordBytes (v : Word16) : List Byte := [v.extractLsb' 8 8, v.extractLsb' 0 8]

/-- The three bytes of an ADC result in bus order (R66). -/
def rawBytes (v : Raw24) : List Byte := [v.extractLsb' 16 8, v.extractLsb' 8 8, v.extractLsb' 0 8]

/-! ### Fields of PROM words -/

/-- The expected CRC, `W[0][15:12]` (R96, R143). -/
def crcNibble (w0 : Word16) : Nibble := w0.extractLsb' 12 4

/-- The CRC input of word 0, `W[0] & 0x0FFF` (R96, R121). -/
def maskCrc (w0 : Word16) : Word16 := w0 &&& 0x0FFF#16

/-! ### The PROM buffer (R20) -/

/-- `W[i]`. -/
def PromBuf.get (b : PromBuf) (i : Fin 8) : Word16 :=
  match i with
  | 0 => b.w0
  | 1 => b.w1
  | 2 => b.w2
  | 3 => b.w3
  | 4 => b.w4
  | 5 => b.w5
  | 6 => b.w6
  | 7 => b.w7

/-- `W[i] <- v`. -/
def PromBuf.set (b : PromBuf) (i : Fin 8) (v : Word16) : PromBuf :=
  match i with
  | 0 => { b with w0 := v }
  | 1 => { b with w1 := v }
  | 2 => { b with w2 := v }
  | 3 => { b with w3 := v }
  | 4 => { b with w4 := v }
  | 5 => { b with w5 := v }
  | 6 => { b with w6 := v }
  | 7 => { b with w7 := v }

/-- The index of the buffer register that holds PROM word `i`. -/
def bufIndex (i : Fin 7) : Fin 8 := i.castSucc

/-! ### Command bytes, as registers and parameters stand -/

/-- CONV_T (R93). -/
def convTByte (s : State) : Byte := convByte s.osr s.cfg.flagTemp

/-- CONV_P (R93). -/
def convPByte (s : State) : Byte := convByte s.osr s.cfg.flagPress

/-! ### Zero extension into the pipeline (R176) -/

/-- A coefficient as an s64. -/
def coefS64 (c : Word16) : S64 := c.zeroExtend 64

/-- A raw ADC result as an s64. -/
def rawS64 (r : Raw24) : S64 := r.zeroExtend 64

/-- The default parameters of R7, from general knowledge (93_implementation_defined.md GK1 to GK3, GK6; PRESUMED, log 2).
No meaning uses them: they serve tests, which put them into `cfg`. -/
def defaultParams : Params where
  devAddr := 0x76#7
  promBase := 0xA0#8
  cmdReset := 0x1E#8
  cmdAdcRead := 0x00#8
  flagTemp := 0x50#8
  flagPress := 0x40#8
  osrOrd := 5#8
  floatFmt := .binary32
  initAbortEarly := false
  instanceIdW := 32
  metaT := ⟨"temperature", 1, 0, 0, 0⟩
  metaP := ⟨"pressure", 2, 0, 0, 0⟩

end Sys2Proof.Machine
end

