-- ==== Sys2Proof/Machine/Environment.lean ====
section
/-!
DEFINITION. Who answers a bus transaction (spec/20_memory.md R64): a script of answers and after it the free oracle, or the
ideal sensor of R81. The block does not look at this; it sees an `Answer`.
-/

namespace Sys2Proof.Machine

/-- How many bytes a transaction reads (R69). -/
def Request.readLen : Request → Nat
  | .busOpen _ _ => 0
  | .busWrite _ => 0
  | .busWriteRead _ n => n

/-- `n` bytes for transaction `k`: those given, and free ones where none is given (R64: "any `data` of the right length"). -/
def fitBytes (k n : Nat) (given : List Byte) : List Byte :=
  (List.range n).map fun j => given.getD j (Config.busByte k j)

/-- The free oracle's answer to transaction `k` (R64). -/
def freeAnswer (k : Nat) (r : Request) : Answer := ⟨Config.busOk k, fitBytes k r.readLen []⟩

/-- The bytes the ideal sensor returns for a read command (R81): a PROM word, the ADC result, else nothing is said.
DESIGN CHOICE (log 9): where CMD_ADC_READ is also the byte of a PROM read, the byte reads the PROM word. R7 leaves both
parameters open and R81 does not say which of its two behaviours applies then. -/
def sensorBytes (cfg : Params) (sn : Sensor) (cmd : Byte) : List Byte :=
  match promIndices.find? (fun i => promrdByte cfg.promBase i = cmd) with
  | some i => wordBytes sn.prom[i]
  | none => if cmd = cfg.cmdAdcRead then rawBytes sn.adc else []

/-- What a one-byte write does to the ideal sensor: a conversion command sets ADC, and no write has an effect on PROM (R81).
DESIGN CHOICE (log 9): the reset command, and any other byte, leaves ADC as it was. R81 says only that the reset command has
no effect on PROM, and R72 that its effect on a conversion in progress is not in the source.
DESIGN CHOICE (log 9): where the two conversion commands are one byte, it starts a temperature conversion, and a conversion
command that is also the reset command starts its conversion. R81 does not say which behaviour applies then. -/
def sensorWrite (cfg : Params) (sn : Sensor) (cmd : Byte) : Sensor :=
  if cmd = convByte cfg.osrOrd cfg.flagTemp then { sn with adc := sn.rawT }
  else if cmd = convByte cfg.osrOrd cfg.flagPress then { sn with adc := sn.rawP }
  else sn

/-- The ideal sensor's answer to transaction `k` (R81). A transaction its failure script marks fails without effect, with
bytes nothing is said of. -/
def sensorAnswer (cfg : Params) (k : Nat) (sn : Sensor) (r : Request) : Answer :=
  if k ∈ sn.fails then ⟨false, fitBytes k r.readLen []⟩
  else match r with
    | .busOpen _ _ => ⟨true, []⟩
    | .busWrite _ => ⟨true, []⟩
    | .busWriteRead cmd n => ⟨true, fitBytes k n (sensorBytes cfg sn cmd)⟩

/-- The ideal sensor after transaction `k` (R81). -/
def sensorAfter (cfg : Params) (k : Nat) (sn : Sensor) (r : Request) : Sensor :=
  if k ∈ sn.fails then sn
  else match r with
    | .busWrite cmd => sensorWrite cfg sn cmd
    | .busOpen _ _ => sn
    | .busWriteRead _ _ => sn

/-- The environment's answer to transaction `k` (R64). -/
def envAnswer (cfg : Params) (k : Nat) (e : Env) (r : Request) : Answer :=
  match e with
  | .script [] => freeAnswer k r
  | .script (a :: _) => ⟨a.ok, fitBytes k r.readLen a.data⟩
  | .ideal sn => sensorAnswer cfg k sn r

/-- The environment after transaction `k`. -/
def envAfter (cfg : Params) (k : Nat) (e : Env) (r : Request) : Env :=
  match e with
  | .script [] => .script []
  | .script (_ :: rest) => .script rest
  | .ideal sn => .ideal (sensorAfter cfg k sn r)

end Sys2Proof.Machine
end

