-- ==== Sys2Proof/Machine/Flags.lean ====
section
/-!
DEFINITION. The four flags of the block (spec/10_state.md R35 to R38). There are no arithmetic condition codes (R39).
-/

namespace Sys2Proof.Machine

/-- `STATUS <- 1` at the start of an operation that uses the bus (R37, R156). -/
@[simps] def State.startStatus (s : State) : State := { s with status := true }

/-- `STATUS <- STATUS & ok` after a transaction (R37): never set back to 1 inside an operation. -/
@[simps] def State.andStatus (s : State) (ok : Bool) : State := { s with status := s.status && ok }

/-- `BUS_OPEN <- ok` (R36, R226). -/
@[simps] def State.withBusOpen (s : State) (ok : Bool) : State := { s with busOpen := ok }

/-- `INITIALIZED <- b` (R35). -/
@[simps] def State.withInitialized (s : State) (b : Bool) : State := { s with initialized := b }

/-- `CRC_OK <- b` (R38, R125). -/
@[simps] def State.withCrcOk (s : State) (b : Bool) : State := { s with crcOk := b }

/-- PROM.LOAD and CONV.SEQ succeeded so far as the bus goes, and the CRC matched: the result of PROM.LOAD, which is STATUS
and-ed with the CRC comparison (R37, R147). -/
def State.loadOk (s : State) : Bool := s.status && s.crcOk

end Sys2Proof.Machine
end

