-- ==== Sys2Proof/Machine/Ops.lean ====
section
/-!
DEFINITION. The operations every meaning is built from: bus transactions and delays (spec/20_memory.md), the sequencer
move, the return to the host, the failure exit (spec/60_exceptions.md, the block's only exceptions) and the shapes in which
a meaning ends.
-/

namespace Sys2Proof.Machine

/-! ### Bus transactions and delays -/

/-- The answer the transport gives if `r` is requested now (R64). -/
def busAnswer (r : Request) (s : State) : Answer := envAnswer s.cfg s.txn s.env r

/-- The state after requesting `r`: one event (R70), one answer used. No register changes. -/
@[simps] def busNext (r : Request) (s : State) : State :=
  { s with
    env := envAfter s.cfg s.txn s.env r
    txn := s.txn + 1
    trace := s.trace ++ [.txn r (busAnswer r s)] }

/-- A transaction and its effect on STATUS: `STATUS <- STATUS & ok` (R37). -/
def transact (r : Request) (s : State) : State := (busNext r s).andStatus (busAnswer r s).ok

/-- `Delay(ms)`: one event, nothing else (R262, R70). It cannot fail. -/
@[simps] def delay (ms : Nat) (s : State) : State := { s with trace := s.trace ++ [.delay ms] }

/-! ### Sequencer, return, failure -/

/-- `SEQ <- q` (R33). -/
@[simps] def State.goto (s : State) (q : SeqState) : State := { s with seq := q }

/-- An operation returns a bit to its caller (R108). -/
@[simps] def State.returning (s : State) (b : Bool) : State := { s with ret := some b }

/-- A host operation ends: SEQ returns to IDLE and the status bit goes to the host (R225, R32). -/
@[simps] def hostReturn (b : Bool) (s : State) : State := { s with seq := .idle, ret := some b }

/-- The two failure causes (R250, R251, R252). -/
inductive FailureCause where
  | busFailure
  | calibrationIntegrityFailure
  deriving DecidableEq, Repr

/-- `raise` (R255): "A failure exit saves nothing and vectors nowhere. The operation returns false to the host and `SEQ`
returns to `IDLE`." No register records the cause (R250, R251, R260), so both causes leave by the same exit. There is no
return from it (R257): the next host operation starts from the state it leaves. -/
def raiseFailure (_cause : FailureCause) (s : State) : State := hostReturn false s

/-! ### How a meaning ends -/

/-- The end of an operation that takes `s` to `t`: the next state, unless a collaborator call among its events never returns
(U9, R253, log 11). -/
def finish (s t : State) : Host.Outcome State Fault Refusal :=
  match s.hangAt with
  | none => .next t
  | some k => if s.trace.length ≤ k ∧ k < t.trace.length then .fault .collaboratorHang else .next t

/-- A host operation is accepted only in IDLE (R33, R225, U7) and under its precondition, else it is refused. -/
def hostOperation (pre : Bool) (why : Refusal) (s t : State) : Host.Outcome State Fault Refusal :=
  if s.seq = .idle then
    if pre then finish s t else .refused why
  else .refused .busy

/-! ### Calls of the host -/

/-- The host's call `c` is the next one the block sees: the block is in IDLE and `c` stands before every other call. -/
@[simps] def State.withCall (s : State) (c : HostCall) : State := { s with seq := .idle, pending := c :: s.pending }

/-- The host call with the bits of a table word (R99); a table row with no 8-bit word is no host call. -/
def callOfWord (nbits w : Nat) : Option HostCall :=
  if nbits = 8 then some ⟨BitVec.ofNat 8 w, 0, 0⟩ else none

/-- The call at the head of the queue has been taken. -/
@[simps] def State.taking (s : State) (rest : List HostCall) : State := { s with pending := rest }

end Sys2Proof.Machine
end

