-- ==== Sys2Proof/Machine/Comp.lean ====
section
/-!
DEFINITION. The compensation engine, `COMP` (spec/43_compensation_engine.md): every register an s64, every operation an
s64 operation (R176), the right shift arithmetic (R177).
-/

namespace Sys2Proof.Machine

/-- `a >> n` on an s64: arithmetic, floor(a / 2^n) (R177, D5). -/
def shr (a : S64) (n : Nat) : S64 := a.sshiftRight n

/-- `a / 16` on an s64 (R178). -/
def div16 (a : S64) : S64 := a.sdiv 16#64

/-- `a²` (R178). -/
def square (a : S64) : S64 := a * a

/-- Stage 1 (R179). -/
def stageDT (dRawT : Raw24) (c : Coeffs) : S64 := rawS64 dRawT - (coefS64 c.c5 <<< 8)

/-- Stage 2 (R180, C1): 2000 is added after the shift. -/
def stageTemp (dT : S64) (c : Coeffs) : S64 := 2000#64 + shr (dT * coefS64 c.c6) 23

/-- The branch test of stage 3 (R182): signed, on TEMP. -/
def highBranch (temp : S64) : Bool := (2000#64).sle temp

/-- The test of the very-low-temperature addition (R185): strict. -/
def veryLow (temp : S64) : Bool := temp.slt (BitVec.ofInt 64 (-1500))

/-- T2 (R183, R184). -/
def stageT2 (dT temp : S64) : S64 :=
  if highBranch temp then shr (5#64 * dT * dT) 38 else shr (3#64 * dT * dT) 33

/-- A second-order correction: zero in the high branch (R183), else `low * (TEMP - 2000)² / 16` (R184), and below -15 °C
`veryLowFactor * (TEMP + 1500)²` more (R185). -/
def correction (low veryLowFactor temp : S64) : S64 :=
  if highBranch temp then 0#64
  else
    let base := div16 (low * square (temp - 2000#64))
    if veryLow temp then base + veryLowFactor * square (temp + 1500#64) else base

/-- OFF2 (R183 to R185). -/
def stageOff2 (temp : S64) : S64 := correction 61#64 17#64 temp

/-- SENS2 (R183 to R185). -/
def stageSens2 (temp : S64) : S64 := correction 29#64 9#64 temp

/-- Stage 4 (R188). -/
def stageOff (dT off2 : S64) (c : Coeffs) : S64 := (coefS64 c.c2 <<< 17) + shr (coefS64 c.c4 * dT) 6 - off2

/-- Stage 5 (R189). -/
def stageSens (dT sens2 : S64) (c : Coeffs) : S64 := (coefS64 c.c1 <<< 16) + shr (coefS64 c.c3 * dT) 7 - sens2

/-- Stage 6 (R190). -/
def stageP (dRawP : Raw24) (sens off : S64) : S64 := shr (shr (rawS64 dRawP * sens) 21 - off) 15

/-- Stage 7 (R191): T2 is subtracted from the reported temperature only. -/
def stageTout (temp t2 : S64) : S64 := temp - t2

/-- The pipeline registers after the operation (R193). -/
def pipeline (dRawT dRawP : Raw24) (c : Coeffs) : Pipe :=
  let dT := stageDT dRawT c
  let temp := stageTemp dT c
  let t2 := stageT2 dT temp
  let off2 := stageOff2 temp
  let sens2 := stageSens2 temp
  let off := stageOff dT off2 c
  let sens := stageSens dT sens2 c
  ⟨dT, temp, t2, off2, sens2, off, sens, stageP dRawP sens off, stageTout temp t2⟩

/-- Stage 8 (R192): the result, T_CENTI, P_CENTI and the two floating-point values. -/
def readingOf (fmt : FloatFmt) (p : Pipe) : Reading :=
  ⟨p.tout, p.p, roundCenti fmt p.tout.toInt, roundCenti fmt p.p.toInt⟩

/-- `COMP` (R193): the pipeline registers, and the result handed to MEASURE (R175: the cache is not written here). -/
@[simps] def compensate (s : State) : State :=
  { s with
    pipe := pipeline s.rawT s.rawP s.coef
    compRet := readingOf s.cfg.floatFmt (pipeline s.rawT s.rawP s.coef) }

/-- `COMP`. -/
def execComp (s : State) : Host.Outcome State Fault Refusal := finish s (compensate s)

end Sys2Proof.Machine
end

