-- ==== Sys2Proof/Machine/Bus.lean ====
section
/-!
DEFINITION. The five bus operations: CMD.RESET, CMD.PROMRD, CMD.CONV.T, CMD.CONV.P, CMD.ADCRD (spec/41 R141, spec/42 R157,
R159, R162, R166).
-/

namespace Sys2Proof.Machine

/-- The memory write primitive (R10): `BusWrite([cmd])`, and-ed into STATUS. -/
def memWrite (cmd : Byte) (s : State) : State := transact (.busWrite cmd) s

/-- The request of the memory read primitive (R10): `BusWriteRead([addr], n)`. -/
def memReadRequest (addr : Byte) (n : Nat) : Request := .busWriteRead addr n

/-- `W[i] <- v` (R20). -/
@[simps] def State.latchWord (s : State) (i : Fin 8) (v : Word16) : State := { s with w := s.w.set i v }

/-- `D_T <- raw` (R160) or `D_P <- raw` (R164). -/
def State.latchRaw (s : State) (dest : Channel) (raw : Raw24) : State :=
  match dest with
  | .temperature => { s with rawT := raw }
  | .pressure => { s with rawP := raw }

/-! ### CMD.CONV.T and CMD.CONV.P -/

/-- State MEA_T_START (R157): the sequencer goes on whether or not the write succeeded (R165). -/
def convStartT (s : State) : State := (memWrite (convTByte s) s).goto .meaTWait

/-- State MEA_P_START (R162). -/
def convStartP (s : State) : State := (memWrite (convPByte s) s).goto .meaPWait

/-- `CMD.CONV.T`. -/
def execCmdConvT (s : State) : Host.Outcome State Fault Refusal := finish s (convStartT s)

/-- `CMD.CONV.P`. -/
def execCmdConvP (s : State) : Host.Outcome State Fault Refusal := finish s (convStartP s)

/-! ### CMD.ADCRD -/

/-- The transaction of an ADC read (R159). -/
def adcRequest (s : State) : Request := memReadRequest s.cfg.cmdAdcRead adcReadLen

/-- The read of an ADC result (R159). The bytes of a failed read are latched too (D32). -/
def adcRead (dest : Channel) (s : State) : State :=
  (transact (adcRequest s) s).latchRaw dest (adcWord (busAnswer (adcRequest s) s).data)

/-- `CMD.ADCRD`. It moves no sequencer state of its own (R159; R160 and R164 do). -/
def execCmdAdcrd (dest : Channel) (s : State) : Host.Outcome State Fault Refusal := finish s (adcRead dest s)

/-! ### CMD.PROMRD -/

/-- The transaction that reads PROM word `i` (R141, R94). -/
def promRequest (i : Fin 7) (s : State) : Request := memReadRequest (promrdByte s.cfg.promBase i) promReadLen

/-- What `W[i]` holds after the read: the word, big-endian, or after a failed read an unspecified value (R141, U4). -/
def promReadWord (i : Fin 7) (s : State) : Word16 :=
  let a := busAnswer (promRequest i s) s
  if a.ok then promWord a.data else Config.lostWord s.txn

/-- The read of PROM word `i` (R141). -/
def promRead (i : Fin 7) (s : State) : State :=
  (transact (promRequest i s) s).latchWord (bufIndex i) (promReadWord i s)

/-- `CMD.PROMRD i`. -/
def execCmdPromrd (i : Fin 7) (s : State) : Host.Outcome State Fault Refusal := finish s (promRead i s)

/-! ### CMD.RESET -/

/-- State RST_CMD (R166): one write, no delay after it; returns STATUS. -/
def resetCommand (s : State) : State :=
  let t := memWrite s.cfg.cmdReset s.startStatus
  if t.status then hostReturn true t else raiseFailure .busFailure t

/-- `CMD.RESET`. -/
def execCmdReset (s : State) : Host.Outcome State Fault Refusal := finish s (resetCommand s)

end Sys2Proof.Machine
end

