-- ==== Sys2Proof/Machine/Conv.lean ====
section
/-!
DEFINITION. The measurement cycle, `CONV.SEQ` (spec/42_conversion_sequencer.md).
-/

namespace Sys2Proof.Machine

/-- State MEA_T_WAIT (R158). -/
def waitT (s : State) : State := (delay settleMs s).goto .meaTRead

/-- State MEA_T_READ (R160). -/
def readT (s : State) : State := (adcRead .temperature s).goto .meaPStart

/-- State MEA_P_WAIT (R163). -/
def waitP (s : State) : State := (delay settleMs s).goto .meaPRead

/-- State MEA_P_READ (R164): on to COMP when STATUS = 1, else the cycle ends in IDLE. -/
def readP (s : State) : State :=
  let t := adcRead .pressure s
  t.goto (if t.status then .meaComp else .idle)

/-- `CONV.SEQ` (R167): six events whatever the transport answers (R165). -/
def convCycle (s : State) : State :=
  readP (waitP (convStartP (readT (waitT (convStartT s.startStatus)))))

/-- `CONV.SEQ`: returns STATUS (R167). -/
def execConvSeq (s : State) : Host.Outcome State Fault Refusal :=
  finish s ((convCycle s).returning (convCycle s).status)

end Sys2Proof.Machine
end

