-- ==== Sys2Proof/Machine/EventAdapter.lean ====
section
/-!
DEFINITION. The event adapter: EVT.FILL, GETEVT.T, GETEVT.P, GETMETA.T, GETMETA.P (spec/44_event_adapter.md).
-/

namespace Sys2Proof.Machine

/-- The descriptor of a channel (R42). -/
def State.chan (s : State) (ch : Channel) : ChanMeta :=
  match ch with
  | .temperature => s.chT
  | .pressure => s.chP

/-- The cached value of a channel: T_READ or P_READ (R212). -/
def State.cached (s : State) (ch : Channel) : FloatReg :=
  match ch with
  | .temperature => s.cache.tRead
  | .pressure => s.cache.pRead

/-- The record `EVT.FILL(ch)` builds (R212, R109); the timestamp is the next free draw. -/
def evtRecord (ch : Channel) (s : State) : EvtRec where
  kind := ch
  sensorId := (s.chan ch).params.sensorId
  timestamp := Config.now s.stamps
  value := s.cached ch

/-- `EVT.FILL(ch)` (R212): no register is written; the record goes to the caller and one timestamp is drawn. -/
@[simps] def evtFill (ch : Channel) (s : State) : State :=
  { s with
    evtOut := some (evtRecord ch s)
    stamps := s.stamps + 1 }

/-- `getMetadata()` of a channel (R214, R215): the constant record. -/
@[simps] def metaRead (ch : Channel) (s : State) : State := { s with metaOut := some (s.chan ch) }

/-- `EVT.FILL`. -/
def execEvtFill (ch : Channel) (s : State) : Host.Outcome State Fault Refusal := finish s (evtFill ch s)

/-- `GETEVT.T` (R210): the Boolean is always true (D34). -/
def execGetevtT (s : State) : Host.Outcome State Fault Refusal :=
  hostOperation s.initialized .notInitialized s (hostReturn true (evtFill .temperature s))

/-- `GETEVT.P` (R211). -/
def execGetevtP (s : State) : Host.Outcome State Fault Refusal :=
  hostOperation s.initialized .notInitialized s (hostReturn true (evtFill .pressure s))

/-- `GETMETA.T` (R214). -/
def execGetmetaT (s : State) : Host.Outcome State Fault Refusal :=
  hostOperation s.initialized .notInitialized s (hostReturn true (metaRead .temperature s))

/-- `GETMETA.P` (R215). -/
def execGetmetaP (s : State) : Host.Outcome State Fault Refusal :=
  hostOperation s.initialized .notInitialized s (hostReturn true (metaRead .pressure s))

end Sys2Proof.Machine
end

