-- ==== Sys2Proof/Machine/Crc.lean ====
section
/-!
DEFINITION. The CRC-4 validator, `CRC4.CHK` (spec/40_crc4_validator.md).
-/

namespace Sys2Proof.Machine

/-- A bit step (R123): the test of bit 15 comes before the 16-bit shift. -/
def crcBitStep (r : Word16) : Word16 := if r.msb then (r <<< 1) ^^^ 0x3000#16 else r <<< 1

/-- `n` bit steps. -/
def crcBitSteps : Nat → Word16 → Word16
  | 0, r => r
  | n + 1, r => crcBitSteps n (crcBitStep r)

/-- A byte step and its eight bit steps (R122, R123): the byte enters bits 7:0. -/
def crcByteStep (r : Word16) (b : Byte) : Word16 := crcBitSteps 8 (r ^^^ b.zeroExtend 16)

/-- The remainder after bytes, first processed first. -/
def crcBytesFrom (r : Word16) : List Byte → Word16
  | [] => r
  | b :: rest => crcBytesFrom (crcByteStep r b) rest

/-- The buffer as the validator sees it (R121): word 0 masked, word 7 forced to zero. -/
def crcInput (w : PromBuf) : PromBuf := { w with w0 := maskCrc w.w0, w7 := 0 }

/-- The sixteen bytes in the order of CNT (R67): high byte then low byte of every word. -/
def crcStream (w : PromBuf) : List Byte :=
  wordBytes w.w0 ++ wordBytes w.w1 ++ wordBytes w.w2 ++ wordBytes w.w3 ++
  wordBytes w.w4 ++ wordBytes w.w5 ++ wordBytes w.w6 ++ wordBytes w.w7

/-- REM after the last bit step (R124); it starts at zero (R121, D7). -/
def crcRemainder (w : PromBuf) : Word16 := crcBytesFrom 0 (crcStream (crcInput w))

/-- The computed CRC, `REM >> 12` (R125). -/
def crc4 (w : PromBuf) : Nibble := (crcRemainder w).extractLsb' 12 4

/-- What the working registers hold after the check (R124): CNT and NBIT the last value their loops gave them (log 16). -/
def crcRegsAfter (w : PromBuf) (expd : Nibble) : CrcRegs where
  remd := crcRemainder w
  cnt := 15
  nbit := 1
  save0 := w.w0
  expd := expd

/-- `CRC4.CHK(W, EXP)` (R124): `W[0]` is as before (R126), `W[7]` is zero. -/
@[simps] def crcCheck (expd : Nibble) (s : State) : State :=
  { s with
    w := { s.w with w7 := 0 }
    crc := crcRegsAfter s.w expd
    crcOk := crc4 s.w == expd }

/-- `CRC4.CHK`: returns CRC_OK (R124). -/
def execCrc4Chk (expd : Nibble) (s : State) : Host.Outcome State Fault Refusal :=
  finish s ((crcCheck expd s).returning (crcCheck expd s).crcOk)

end Sys2Proof.Machine
end

