-- ==== Sys2Proof/Machine/Loader.lean ====
section
/-!
DEFINITION. The calibration loader, `PROM.LOAD` (spec/41_calibration_loader.md).
-/

namespace Sys2Proof.Machine

/-- Whether the loader stops after the read of word `i`: it failed and INIT_ABORT_EARLY is true (R142). -/
def stopsAfter (i : Fin 7) (s : State) : Bool :=
  !(busAnswer (promRequest i s) s).ok && s.cfg.initAbortEarly

/-- The PROM reads, in the order given, cut short after a failure if INIT_ABORT_EARLY (R141, R142). -/
def promReads : List (Fin 7) → State → State
  | [], s => s
  | i :: rest, s => if stopsAfter i s then promRead i s else promReads rest (promRead i s)

/-- `CRCN <- W[0][15:12]`, and `W[7] <- 0` (R143). -/
@[simps] def extractCrc (s : State) : State :=
  { s with
    w := { s.w with w7 := 0 }
    crcn := crcNibble s.w.w0 }

/-- State INI_CRC: build word 7, extract the expected CRC, run CRC4.CHK with EXP = CRCN (R143, R144). -/
def checkProm (s : State) : State := crcCheck (extractCrc s).crcn (extractCrc s)

/-- The coefficients in the buffer: `Ci` is word i (R21, R146, D4). -/
def coeffsOf (w : PromBuf) : Coeffs := ⟨w.w1, w.w2, w.w3, w.w4, w.w5, w.w6⟩

/-- The commit (R146): the six coefficients and OSR, together. -/
@[simps] def commitCalibration (s : State) : State :=
  { s with
    coef := coeffsOf s.w
    osr := s.cfg.osrOrd }

/-- `PROM.LOAD` (R147). It succeeded when STATUS and CRC_OK are both 1 (`State.loadOk`); a bus failure leaves STATUS = 0,
an integrity failure STATUS = 1 and CRC_OK = 0. After a failed read W[7] is not written (R147, R148 against R28, log 19). -/
def promLoad (s : State) : State :=
  let s1 := promReads promIndices s.startStatus
  if s1.status then
    let s2 := checkProm s1
    if s2.crcOk then commitCalibration s2 else s2
  else s1

/-- `PROM.LOAD`: returns its success (R140). -/
def execPromLoad (s : State) : Host.Outcome State Fault Refusal :=
  finish s ((promLoad s).returning (promLoad s).loadOk)

end Sys2Proof.Machine
end

