-- ==== Sys2Proof/Machine/HostOps.lean ====
section
/-!
DEFINITION. The host operations that change state: RESET, INIT, MEASURE (spec/45_host_operations.md). Each is one big step
(R11); the sequencer's own small steps are in Machine/Sequencer.lean.
-/

namespace Sys2Proof.Machine

/-! ### RESET -/

/-- The sequencer accepts RESET (R32). -/
def resetStart (s : State) : State := (s.startStatus).goto .rstCmd

/-- `RESET` (R227): needs BUS_OPEN = 1. -/
def execReset (s : State) : Host.Outcome State Fault Refusal :=
  hostOperation s.busOpen .transportNotOpen s (resetCommand (resetStart s))

/-! ### INIT -/

/-- The entry of INIT (R226): INITIALIZED is cleared, `id` latched, the transport owned so far released and `bus` adopted,
without an event (D28); STATUS starts at 1 (R37). -/
@[simps] def initStart (bus ident : Nat) (s : State) : State :=
  { s with
    initialized := false
    instanceId := ident
    busHandle := bus
    status := true
    seq := .iniOpen }

/-- The transaction of INI_OPEN (R60). -/
def openRequest (s : State) : Request := .busOpen s.busHandle s.cfg.devAddr

/-- State INI_OPEN (R226): `ok <- BusOpen(); BUS_OPEN <- ok`. -/
def openBus (s : State) : State := (transact (openRequest s) s).withBusOpen (busAnswer (openRequest s) s).ok

/-- The channel descriptor with the kind DOC0 fixes (R42). -/
def channelOf (kind : Channel) (m : MetaParams) : ChanMeta := ⟨kind, m⟩

/-- The end of a successful INIT (R226): the channels are created and INITIALIZED is set. -/
@[simps] def becomeReady (s : State) : State :=
  { s with
    chT := channelOf .temperature s.cfg.metaT
    chP := channelOf .pressure s.cfg.metaP
    initialized := true }

/-- `INIT(bus, id)` (R226). -/
def initialise (bus ident : Nat) (s : State) : State :=
  let s1 := openBus (initStart bus ident s)
  if s1.busOpen then
    let s2 := promLoad s1
    if s2.status then
      if s2.crcOk then hostReturn true (becomeReady s2)
      else raiseFailure .calibrationIntegrityFailure s2
    else raiseFailure .busFailure s2
  else raiseFailure .busFailure s1

/-- `INIT bus, id` (R226): no precondition but IDLE. -/
def execInit (bus ident : Nat) (s : State) : Host.Outcome State Fault Refusal :=
  hostOperation true .busy s (initialise bus ident s)

/-! ### MEASURE -/

/-- The entry of MEASURE (R228, R156): the want flags are latched, STATUS starts at 1. -/
@[simps] def measureStart (p t : Bool) (s : State) : State :=
  { s with
    want := ⟨p, t⟩
    status := true
    seq := .meaTStart }

/-- The commit (R229): the four cache registers together. -/
@[simps] def commitReading (s : State) : State := { s with cache := s.compRet }

/-- The pressure record is filled if it was asked for (R228, R231). -/
def fillWantedP (s : State) : State :=
  if s.want.p then { s with recP := evtRecord .pressure s, stamps := s.stamps + 1 } else s

/-- The temperature record is filled if it was asked for (R228, R231). -/
def fillWantedT (s : State) : State :=
  if s.want.t then { s with recT := evtRecord .temperature s, stamps := s.stamps + 1 } else s

/-- State MEA_COMMIT (R229, R228): commit, then the records asked for, then true. -/
def commitAndFill (s : State) : State := hostReturn true (fillWantedT (fillWantedP (commitReading s)))

/-- `MEASURE(p, t, h)` (R228); `h` has no effect of any kind (R230). -/
def measure (p t : Bool) (s : State) : State :=
  let s1 := convCycle (measureStart p t s)
  if s1.status then commitAndFill (compensate s1) else raiseFailure .busFailure s1

/-- `MEASURE p, t, h` (R228): needs INITIALIZED = 1 (R232). -/
def execMeasure (p t _h : Bool) (s : State) : Host.Outcome State Fault Refusal :=
  hostOperation s.initialized .notInitialized s (measure p t s)

end Sys2Proof.Machine
end

