-- ==== Sys2Proof/Machine/Dispatch.lean ====
section
/-!
DEFINITION. One arm per operation of spec/opcode_table.json.
-/

namespace Sys2Proof.Machine

def exec (i : Instr) (s : State) : Host.Outcome State Fault Refusal :=
  match i with
  | .reset => Sys2Proof.Machine.execReset s
  | .init bus ident => Sys2Proof.Machine.execInit bus ident s
  | .measure p t h => Sys2Proof.Machine.execMeasure p t h s
  | .getevtT => Sys2Proof.Machine.execGetevtT s
  | .getevtP => Sys2Proof.Machine.execGetevtP s
  | .getmetaT => Sys2Proof.Machine.execGetmetaT s
  | .getmetaP => Sys2Proof.Machine.execGetmetaP s
  | .crc4Chk expd => Sys2Proof.Machine.execCrc4Chk expd s
  | .promLoad => Sys2Proof.Machine.execPromLoad s
  | .convSeq => Sys2Proof.Machine.execConvSeq s
  | .comp => Sys2Proof.Machine.execComp s
  | .evtFill ch => Sys2Proof.Machine.execEvtFill ch s
  | .cmdReset => Sys2Proof.Machine.execCmdReset s
  | .cmdPromrd k => Sys2Proof.Machine.execCmdPromrd k s
  | .cmdConvT => Sys2Proof.Machine.execCmdConvT s
  | .cmdConvP => Sys2Proof.Machine.execCmdConvP s
  | .cmdAdcrd dest => Sys2Proof.Machine.execCmdAdcrd dest s

end Sys2Proof.Machine
end

