-- ==== Sys2Proof/Machine/Sequencer.lean ====
section
/-!
DEFINITION. The sequencer's small steps (spec/10_state.md R31, R32): what the block does in each state of SEQ other than
IDLE, and where SEQ goes. A host operation run to completion in small steps is what its big step gives (R11).
-/

namespace Sys2Proof.Machine

/-- The end of INI_PROM(i) (R32): the next word, INI_CRC after the last one if STATUS = 1, or the failure exit. `stop` says
that this read failed and INIT_ABORT_EARLY is true. -/
def promAdvance (i : Fin 7) (stop : Bool) (s : State) : State :=
  if stop then raiseFailure .busFailure s
  else match i with
    | 0 => s.goto (.iniProm 1)
    | 1 => s.goto (.iniProm 2)
    | 2 => s.goto (.iniProm 3)
    | 3 => s.goto (.iniProm 4)
    | 4 => s.goto (.iniProm 5)
    | 5 => s.goto (.iniProm 6)
    | 6 => if s.status then s.goto .iniCrc else raiseFailure .busFailure s

/-- State INI_OPEN (R32). -/
def stepIniOpen (s : State) : State :=
  let t := openBus s
  if t.busOpen then t.startStatus.goto (.iniProm 0) else raiseFailure .busFailure t

/-- State INI_PROM(i) (R32). -/
def stepIniProm (i : Fin 7) (s : State) : State := promAdvance i (stopsAfter i s) (promRead i s)

/-- State INI_CRC (R32). -/
def stepIniCrc (s : State) : State :=
  let t := checkProm s
  if t.crcOk then t.goto .iniCommit else raiseFailure .calibrationIntegrityFailure t

/-- State INI_COMMIT (R31, R32). -/
def stepIniCommit (s : State) : State := hostReturn true (becomeReady (commitCalibration s))

/-- State MEA_P_READ (R32): a cycle that failed ends MEASURE here with false. -/
def stepMeaPRead (s : State) : State :=
  let t := readP s
  if t.status then t else raiseFailure .busFailure t

/-- State MEA_COMP (R32). -/
def stepMeaComp (s : State) : State := (compensate s).goto .meaCommit

/-- One step of the sequencer (R32). In IDLE it has nothing to do. -/
def seqStep (s : State) : State :=
  match s.seq with
  | .idle => s
  | .rstCmd => resetCommand s
  | .iniOpen => stepIniOpen s
  | .iniProm i => stepIniProm i s
  | .iniCrc => stepIniCrc s
  | .iniCommit => stepIniCommit s
  | .meaTStart => convStartT s
  | .meaTWait => waitT s
  | .meaTRead => readT s
  | .meaPStart => convStartP s
  | .meaPWait => waitP s
  | .meaPRead => stepMeaPRead s
  | .meaComp => stepMeaComp s
  | .meaCommit => commitAndFill s

/-- The state in which the sequencer stands when it has accepted a host operation in IDLE (R32). The register reads have
"no sequencer state", and unit and bus operations are not issued by the host: they leave the state alone. -/
def accept (i : Instr) (s : State) : State :=
  match i with
  | .reset => resetStart s
  | .init bus ident => initStart bus ident s
  | .measure p t _ => measureStart p t s
  | .getevtT | .getevtP | .getmetaT | .getmetaP => s
  | .crc4Chk _ | .promLoad | .convSeq | .comp | .evtFill _ => s
  | .cmdReset | .cmdPromrd _ | .cmdConvT | .cmdConvP | .cmdAdcrd _ => s

end Sys2Proof.Machine
end

