-- ==== Sys2Proof/WellFormed.lean ====
section
/-!
DEFINITION. Well-formed operations. Every bound but one is in the operand's type (EXP has 4 bits, i is below 7);
the width of `instanceId` is a parameter (R7, INSTANCE_ID_W), so it is checked here.
-/

namespace Sys2Proof

/-- A value fits in `width` bits; zero fits in any width. -/
def fitsIn (width value : Nat) : Bool := value == 0 || decide (value < 2 ^ width)

/-- The operands of `i` fit their widths, `idWidth` being INSTANCE_ID_W (R7, R100). -/
def Instr.wellFormed (idWidth : Nat) : Instr → Bool
  | .init _ ident => fitsIn idWidth ident
  | .reset | .measure _ _ _ | .getevtT | .getevtP | .getmetaT | .getmetaP => true
  | .crc4Chk _ | .promLoad | .convSeq | .comp | .evtFill _ => true
  | .cmdReset | .cmdPromrd _ | .cmdConvT | .cmdConvP | .cmdAdcrd _ => true

end Sys2Proof
end

