-- ==== Sys2Proof/Machine/Step.lean ====
section
/-!
DEFINITION. One step of the block. In IDLE it takes the host's next call and runs it to completion (R33, R225, R11), or
waits if there is none (R281); in any other state of SEQ the sequencer makes one small step (R32).
-/

namespace Sys2Proof.Machine

/-- One step. -/
def step (s : State) : Host.Outcome State Fault Refusal :=
  match s.seq with
  | .idle =>
    match s.pending with
    | [] => .next s
    | c :: rest =>
      match decodeHost c with
      | .error why => .refused (.reservedHostWord why)
      | .ok i =>
        if i.wellFormed s.cfg.instanceIdW then exec i (s.taking rest)
        else .refused .operandTooWide
  | _ => finish s (seqStep s)

/-- `s` with the host call whose word has these bits as the next one the block takes. -/
def State.withFetchWord (s : State) (nbits w : Nat) : State :=
  match callOfWord nbits w with
  | some c => s.withCall c
  | none => s

end Sys2Proof.Machine
end

