-- ==== Sys2Proof/Safety.lean ====
section
/-!
DEFINITION. What the claims speak of: independent readings of the CRC and of the pipeline, the events an operation asks for,
and the invariant of a ready block. Written from the rules, not from the meanings.
-/

namespace Sys2Proof.Safety

open Sys2Proof.Machine

/-! ### The CRC as a bit-serial division (R129) -/

/-- The bits of a word, most significant first. -/
def wordBits (v : Word16) : List Bool :=
  [v.getLsbD 15, v.getLsbD 14, v.getLsbD 13, v.getLsbD 12, v.getLsbD 11, v.getLsbD 10, v.getLsbD 9, v.getLsbD 8,
   v.getLsbD 7, v.getLsbD 6, v.getLsbD 5, v.getLsbD 4, v.getLsbD 3, v.getLsbD 2, v.getLsbD 1, v.getLsbD 0]

/-- The 112 message bits of M', word 0 first with its top four bits cleared (R129). -/
def messageBits (w : PromBuf) : List Bool :=
  wordBits (w.w0 &&& 0x0FFF#16) ++ wordBits w.w1 ++ wordBits w.w2 ++ wordBits w.w3 ++ wordBits w.w4 ++ wordBits w.w5 ++
    wordBits w.w6

/-- One step of form A (R129). -/
def formAStep (c : Nibble) (b : Bool) : Nibble :=
  if c.getLsbD 3 ^^ b then (c <<< 1) ^^^ 3#4 else c <<< 1

/-- Form A: the message followed by 8 zero bits (R129). -/
def formA (w : PromBuf) : Nibble := (messageBits w ++ List.replicate 8 false).foldl formAStep 0

/-- One step of form B (R129): the long division by x^4 + x + 1. -/
def formBStep (c : Nibble) (b : Bool) : Nibble :=
  let shifted := (c <<< 1) ||| BitVec.zeroExtend 4 (BitVec.ofBool b)
  if c.getLsbD 3 then shifted ^^^ 3#4 else shifted

/-- Form B: the message followed by 12 zero bits (R129). -/
def formB (w : PromBuf) : Nibble := (messageBits w ++ List.replicate 12 false).foldl formBStep 0

/-- A block passes when its computed CRC is the top nibble of word 0 (R120, R143). -/
def passes (w : PromBuf) : Prop := crc4 w = crcNibble w.w0

/-- A row of the tables of R131 and 95_test_vectors.md section 2.1: the final remainder, the computed CRC, the CRC in the
block's top nibble, and whether the two agree. -/
def crcRow (w : PromBuf) (remainder : Word16) (computed expected : Nibble) (ok : Bool) : Prop :=
  crcRemainder w = remainder ∧ crc4 w = computed ∧ crcNibble w.w0 = expected ∧ (crc4 w == crcNibble w.w0) = ok

/-- The block with bit `j` of word `i` flipped. -/
def flipBit (w : PromBuf) (i : Fin 7) (j : Fin 16) : PromBuf :=
  w.set (bufIndex i) (w.get (bufIndex i) ^^^ BitVec.twoPow 16 j)

/-! ### The pipeline on mathematical integers (R176, R193) -/

/-- The nine pipeline quantities as integers. -/
structure IntPipe where
  dT : Int
  temp : Int
  t2 : Int
  off2 : Int
  sens2 : Int
  off : Int
  sens : Int
  p : Int
  tout : Int
  deriving DecidableEq, Repr

/-- The pipeline of R193 in unbounded integers. `/` of an integer by a positive integer rounds toward minus infinity, so
`a / 2 ^ n` is `a >> n` (R177). -/
def intPipeline (dRawT dRawP c1 c2 c3 c4 c5 c6 : Int) : IntPipe :=
  let dT := dRawT - c5 * 256
  let temp := 2000 + dT * c6 / 2 ^ 23
  let high := 2000 ≤ temp
  let extra := temp < -1500
  let t2 := if high then 5 * dT ^ 2 / 2 ^ 38 else 3 * dT ^ 2 / 2 ^ 33
  let off2 := if high then 0
    else 61 * (temp - 2000) ^ 2 / 16 + (if extra then 17 * (temp + 1500) ^ 2 else 0)
  let sens2 := if high then 0
    else 29 * (temp - 2000) ^ 2 / 16 + (if extra then 9 * (temp + 1500) ^ 2 else 0)
  let off := c2 * 2 ^ 17 + c4 * dT / 2 ^ 6 - off2
  let sens := c1 * 2 ^ 16 + c3 * dT / 2 ^ 7 - sens2
  let p := (dRawP * sens / 2 ^ 21 - off) / 2 ^ 15
  ⟨dT, temp, t2, off2, sens2, off, sens, p, temp - t2⟩

/-- The integers the pipeline registers stand for. -/
def intsOf (p : Pipe) : IntPipe :=
  ⟨p.dT.toInt, p.temp.toInt, p.t2.toInt, p.off2.toInt, p.sens2.toInt, p.off.toInt, p.sens.toInt, p.p.toInt, p.tout.toInt⟩

/-- The integer pipeline on the operands a state holds, each unsigned (R175, R176). -/
def intPipelineOf (s : State) : IntPipe :=
  intPipeline s.rawT.toNat s.rawP.toNat s.coef.c1.toNat s.coef.c2.toNat s.coef.c3.toNat s.coef.c4.toNat s.coef.c5.toNat
    s.coef.c6.toNat

/-- The magnitude of the value a binary32 pattern below the infinities stands for. -/
def binary32Magnitude (v : FloatReg) : ℚ :=
  let fraction : ℕ := v.toNat % 2 ^ 23
  let exponent : ℕ := v.toNat / 2 ^ 23 % 2 ^ 8
  if exponent = 0 then (fraction : ℚ) * (2 : ℚ) ^ (-149 : ℤ)
  else ((2 ^ 23 + fraction : ℕ) : ℚ) * (2 : ℚ) ^ ((exponent : ℤ) - 150)

/-- The sign bit of a binary32 pattern. -/
def binary32Negative (v : FloatReg) : Bool := v.getLsbD 31

/-! ### Host command words (R102) -/

/-- The word is reserved, as R102 lists them, read arithmetically. -/
def reservedWord (b : Byte) : Prop :=
  b.toNat / 32 = 7 ∨ b.toNat % 4 ≠ 0 ∨ (b.toNat / 32 ≠ 2 ∧ b.toNat / 4 % 8 ≠ 0)

/-! ### Events (R70, R237) -/

/-- What an event asks of a collaborator, without its answer. -/
inductive Ask where
  | transaction (r : Request)
  | delay (ms : Nat)
  deriving DecidableEq, Repr

/-- The request of an event. -/
def askOf : Event → Ask
  | .txn r _ => .transaction r
  | .delay ms => .delay ms

/-- The event is a transaction that failed. -/
def failed : Event → Bool
  | .txn _ a => !a.ok
  | .delay _ => false

/-- The events that `t` has after those of `s`. -/
def newEvents (s t : State) : List Event := t.trace.drop s.trace.length

/-- What the six events of a measurement cycle ask (R155, R237), as registers and parameters stand in `s`. -/
def measureAsks (s : State) : List Ask :=
  [.transaction (.busWrite (BitVec.ofNat 8 (2 * s.osr.toNat ||| s.cfg.flagTemp.toNat))), .delay 18,
   .transaction (.busWriteRead s.cfg.cmdAdcRead 3),
   .transaction (.busWrite (BitVec.ofNat 8 (2 * s.osr.toNat ||| s.cfg.flagPress.toNat))), .delay 18,
   .transaction (.busWriteRead s.cfg.cmdAdcRead 3)]

/-- What the seven PROM reads ask (R141, R237). -/
def promAsks (s : State) : List Ask :=
  [0, 1, 2, 3, 4, 5, 6].map fun i =>
    .transaction (.busWriteRead (BitVec.ofNat 8 (s.cfg.promBase.toNat + 2 * i)) 2)

/-- The answers of a transport that reads the words of `b` from the PROM without a failure. -/
def promAnswers (b : PromBuf) : List Answer :=
  [⟨true, wordBytes b.w0⟩, ⟨true, wordBytes b.w1⟩, ⟨true, wordBytes b.w2⟩, ⟨true, wordBytes b.w3⟩, ⟨true, wordBytes b.w4⟩,
   ⟨true, wordBytes b.w5⟩, ⟨true, wordBytes b.w6⟩]

/-- The events of seven PROM reads that all succeed and give the words of `b` (R141). -/
def promEvents (s : State) (b : PromBuf) : List Event :=
  [.txn (.busWriteRead (promrdByte s.cfg.promBase 0) 2) ⟨true, wordBytes b.w0⟩,
   .txn (.busWriteRead (promrdByte s.cfg.promBase 1) 2) ⟨true, wordBytes b.w1⟩,
   .txn (.busWriteRead (promrdByte s.cfg.promBase 2) 2) ⟨true, wordBytes b.w2⟩,
   .txn (.busWriteRead (promrdByte s.cfg.promBase 3) 2) ⟨true, wordBytes b.w3⟩,
   .txn (.busWriteRead (promrdByte s.cfg.promBase 4) 2) ⟨true, wordBytes b.w4⟩,
   .txn (.busWriteRead (promrdByte s.cfg.promBase 5) 2) ⟨true, wordBytes b.w5⟩,
   .txn (.busWriteRead (promrdByte s.cfg.promBase 6) 2) ⟨true, wordBytes b.w6⟩]

/-- The 24-bit value of three bytes, the first the most significant (R66). -/
def threeBytes (a b c : Byte) : Raw24 := BitVec.ofNat 24 (a.toNat * 65536 + b.toNat * 256 + c.toNat)

/-- The six events of a measurement cycle whose transactions are answered so (R155). -/
def measureEvents (s : State) (okT okRT okP okRP : Bool) (dT dP : List Byte) : List Event :=
  [.txn (.busWrite (convTByte s)) ⟨okT, []⟩, .delay 18, .txn (.busWriteRead s.cfg.cmdAdcRead 3) ⟨okRT, dT⟩,
   .txn (.busWrite (convPByte s)) ⟨okP, []⟩, .delay 18, .txn (.busWriteRead s.cfg.cmdAdcRead 3) ⟨okRP, dP⟩]

/-- What the block may ask of a collaborator in state `s` (R237, R104): the five families of command bytes, opening the
transport, and the one delay. -/
def allowedAsk (s : State) : Ask → Prop
  | .transaction (.busOpen _ dev) => dev = s.cfg.devAddr
  | .transaction (.busWrite cmd) => cmd = s.cfg.cmdReset ∨ cmd = convTByte s ∨ cmd = convPByte s
  | .transaction (.busWriteRead cmd n) =>
    (n = 2 ∧ ∃ i : Fin 7, cmd = promrdByte s.cfg.promBase i) ∨ (n = 3 ∧ cmd = s.cfg.cmdAdcRead)
  | .delay ms => ms = 18

/-- What the block may ask of a collaborator when its registers meet the invariant (R104): as `allowedAsk`, with the
conversion commands of the configured resolution OSR_ORD and of no other. -/
def configuredAsk (s : State) : Ask → Prop
  | .transaction (.busOpen _ dev) => dev = s.cfg.devAddr
  | .transaction (.busWrite cmd) =>
    cmd = s.cfg.cmdReset ∨ cmd = convByte s.cfg.osrOrd s.cfg.flagTemp ∨ cmd = convByte s.cfg.osrOrd s.cfg.flagPress
  | .transaction (.busWriteRead cmd n) =>
    (n = 2 ∧ ∃ i : Fin 7, cmd = promrdByte s.cfg.promBase i) ∨ (n = 3 ∧ cmd = s.cfg.cmdAdcRead)
  | .delay ms => ms = 18

/-! ### The transition table of the sequencer (R32) -/

/-- The success flag the transport gives if the block asks for `r` now: "ok" of R32. -/
def okOf (r : Request) (s : State) : Bool := (busAnswer r s).ok

/-- The request of INI_PROM(i) (R141). -/
def wordRequest (i : Fin 7) (s : State) : Request :=
  .busWriteRead (BitVec.ofNat 8 (s.cfg.promBase.toNat + 2 * i.val)) 2

/-- A row of R32: the state SEQ goes to, and the status returned where the operation ends there. -/
structure Row where
  next : SeqState
  returned : Option Bool
  deriving DecidableEq, Repr

/-- An operation goes on to `q`. -/
def Row.goOn (q : SeqState) : Row := ⟨q, none⟩

/-- An operation ends in IDLE and returns `b`. -/
def Row.endsWith (b : Bool) : Row := ⟨.idle, some b⟩

/-- The rows of INI_PROM(i): `ok` is the flag of this read, `status` is STATUS after it. -/
def promRow (i : Fin 7) (ok status abortEarly : Bool) : Row :=
  if ok = false ∧ abortEarly = true then .endsWith false
  else if h : i.val < 6 then .goOn (.iniProm ⟨i.val + 1, by omega⟩)
  else if status = true then .goOn .iniCrc
  else .endsWith false

/-- The row of R32 that applies in `s`. The last row of the table, for a host operation in IDLE, is not meant here. -/
def rowOf (s : State) : Row :=
  match s.seq with
  | .idle => .goOn .idle
  | .rstCmd => .endsWith (okOf (.busWrite s.cfg.cmdReset) s)
  | .iniOpen => if okOf (.busOpen s.busHandle s.cfg.devAddr) s = true then .goOn (.iniProm 0) else .endsWith false
  | .iniProm i =>
    promRow i (okOf (wordRequest i s) s) (s.status && okOf (wordRequest i s) s) s.cfg.initAbortEarly
  | .iniCrc => if crc4 s.w = s.w.w0.extractLsb' 12 4 then .goOn .iniCommit else .endsWith false
  | .iniCommit => .endsWith true
  | .meaTStart => .goOn .meaTWait
  | .meaTWait => .goOn .meaTRead
  | .meaTRead => .goOn .meaPStart
  | .meaPStart => .goOn .meaPWait
  | .meaPWait => .goOn .meaPRead
  | .meaPRead =>
    if (s.status && okOf (.busWriteRead s.cfg.cmdAdcRead 3) s) = true then .goOn .meaComp else .endsWith false
  | .meaComp => .goOn .meaCommit
  | .meaCommit => .endsWith true

/-! ### The ready block (R35, R259) -/

/-- The calibration the block holds passed its check: "CalibrationSet must pass CRC validation before any compensation
arithmetic is trusted" (R259). -/
def calibrated (s : State) : Prop :=
  s.w.w7 = 0 ∧ s.crcn = crcNibble s.w.w0 ∧ s.crcOk = true ∧ passes s.w

/-- What INITIALIZED = 1 stands for (R35, R146, R226): the transport is open, the coefficients are those of a block that
passed, OSR is OSR_ORD, the channels are the constant records. -/
def readyBlock (s : State) : Prop :=
  s.busOpen = true ∧ calibrated s ∧ s.coef = coeffsOf s.w ∧ s.osr = s.cfg.osrOrd ∧
    s.chT = channelOf .temperature s.cfg.metaT ∧ s.chP = channelOf .pressure s.cfg.metaP

/-- SEQ stands in a state of INIT. -/
def inInit (q : SeqState) : Bool :=
  match q with
  | .iniOpen | .iniProm _ | .iniCrc | .iniCommit => true
  | .idle | .rstCmd | .meaTStart | .meaTWait | .meaTRead | .meaPStart | .meaPWait | .meaPRead | .meaComp | .meaCommit =>
    false

/-- The transport has been opened by the INIT in progress. -/
def pastOpen (q : SeqState) : Bool :=
  match q with
  | .iniProm _ | .iniCrc | .iniCommit => true
  | .idle | .rstCmd | .iniOpen | .meaTStart | .meaTWait | .meaTRead | .meaPStart | .meaPWait | .meaPRead | .meaComp
  | .meaCommit => false

/-- SEQ stands in a state of MEASURE. -/
def inMeasure (q : SeqState) : Bool :=
  match q with
  | .meaTStart | .meaTWait | .meaTRead | .meaPStart | .meaPWait | .meaPRead | .meaComp | .meaCommit => true
  | .idle | .rstCmd | .iniOpen | .iniProm _ | .iniCrc | .iniCommit => false

/-- The invariant of the block: a ready block holds a calibration that passed; the block is not ready while INIT runs, INIT
commits only what passed, and RESET and MEASURE run only under their preconditions (R32). -/
def Inv (s : State) : Prop :=
  (s.initialized = true → readyBlock s) ∧
  (inInit s.seq = true → s.initialized = false) ∧
  (pastOpen s.seq = true → s.busOpen = true) ∧
  (s.seq = .iniCommit → calibrated s) ∧
  (s.seq = .rstCmd → s.busOpen = true) ∧
  (inMeasure s.seq = true → s.initialized = true)

/-! ### Runs -/

/-- The next call of the host asks for `i`. -/
def nextCall (s : State) (i : Instr) : Prop := ∃ c rest, s.pending = c :: rest ∧ decodeHost c = .ok i

/-- The ideal sensor can tell the commands apart (R81): no PROM read is the ADC read, and the two conversion commands at
OSR_ORD differ. -/
def distinctCommands (cfg : Params) : Prop :=
  (∀ i : Fin 7, promrdByte cfg.promBase i ≠ cfg.cmdAdcRead) ∧
    convByte cfg.osrOrd cfg.flagTemp ≠ convByte cfg.osrOrd cfg.flagPress

/-- The PROM of the ideal sensor as a buffer with the zero word (R81). -/
def sensorProm (sn : Sensor) : PromBuf :=
  ⟨sn.prom[0], sn.prom[1], sn.prom[2], sn.prom[3], sn.prom[4], sn.prom[5], sn.prom[6], 0⟩

/-- A state in which a host operation may be accepted and every collaborator call returns (R33, R295). -/
def quiet (s : State) : Prop := s.seq = .idle ∧ s.hangAt = none

end Sys2Proof.Safety
end

