-- ==== Sys2Proof/Certificates/Slice0/Obligations.lean ====
section
/-!
DEFINITION. The statements for the provers. Each holds for every state, whatever environment answers the bus, unless a
hypothesis says otherwise. `quiet s` says that SEQ is IDLE and that every collaborator call returns (R33, R295).
What an operation returns to its caller stands in `ret`, `evtOut` and `metaOut` (log 8), its events in `trace` (R70); `env` and
`txn` are the environment that answers the bus (log 9), `stamps` counts the timestamps drawn (log 10). A docstring names the log
entry where a statement rests on a choice of the model.
-/

open Sys2Proof Sys2Proof.Machine Sys2Proof.Safety

/-! ### Encoding -/

/-- R99: every host operation, with every operand, is read back from its call. -/
def Obligations.HostEncodeDecodeRoundTrip : Prop :=
  ∀ (i : Instr) (c : HostCall), encodeHost i = some c → decodeHost c = .ok i

/-- R99: a word decodes to an operation only if it is that operation's word. -/
def Obligations.DecodedHostWordsAreTheEncodedOnes : Prop :=
  ∀ (i : Instr) (c : HostCall), decodeHost c = .ok i → ∃ c', encodeHost i = some c' ∧ c'.word = c.word

/-- R102: a step refuses exactly the reserved words; every other word is an operation. -/
def Obligations.ReservedHostWordsAreRefused : Prop :=
  ∀ (s : State) (c : HostCall) (rest : List HostCall), s.seq = .idle → s.pending = c :: rest →
    (reservedWord c.word → ∃ why, step s = .refused (.reservedHostWord why)) ∧
    (¬ reservedWord c.word → (∃ i, decodeHost c = .ok i) ∧ ∀ why, step s ≠ .refused (.reservedHostWord why))

/-- R99, R102 and 95_test_vectors.md section 2.6: words written out from the encoding. That an 8-bit table word is read as a
host command word (HOSTOP8) and not as a command byte (CMD8) is the model's reading of R91, log 4. -/
def Obligations.HostWordsOfTheTableDecode : Prop :=
  decodeTableWord 8 0x00 = some .reset ∧ decodeTableWord 8 0x20 = some (.init 0 0) ∧
  decodeTableWord 8 0x44 = some (.measure false false true) ∧ decodeTableWord 8 0x48 = some (.measure false true false) ∧
  decodeTableWord 8 0x50 = some (.measure true false false) ∧ decodeTableWord 8 0x60 = some .getevtT ∧
  decodeTableWord 8 0x80 = some .getevtP ∧ decodeTableWord 8 0xA0 = some .getmetaT ∧
  decodeTableWord 8 0xC0 = some .getmetaP ∧ decodeTableWord 8 0xE0 = none ∧ decodeTableWord 8 0x01 = none ∧
  decodeTableWord 8 0x24 = none ∧ decodeTableWord 8 0x68 = none

/-- R93, R94, R95: the command bytes, computed in unbounded numbers and then truncated to 8 bits. -/
def Obligations.CommandBytesAreAssembledFromTheirParts : Prop :=
  ∀ (cfg : Params) (osr : Byte) (k : Fin 7) (dest : Channel),
    encodeCmd8 cfg osr .cmdConvT = some (BitVec.ofNat 8 (2 * osr.toNat ||| cfg.flagTemp.toNat)) ∧
    encodeCmd8 cfg osr .cmdConvP = some (BitVec.ofNat 8 (2 * osr.toNat ||| cfg.flagPress.toNat)) ∧
    encodeCmd8 cfg osr (.cmdPromrd k) = some (BitVec.ofNat 8 (cfg.promBase.toNat + 2 * k.val)) ∧
    encodeCmd8 cfg osr .cmdReset = some cfg.cmdReset ∧
    encodeCmd8 cfg osr (.cmdAdcrd dest) = some cfg.cmdAdcRead

/-! ### The step -/

/-- A step in IDLE runs the host's next operation: it takes the call from the queue and is `exec` of what it decodes to. That
calls stand in a queue and that one step runs a whole operation is the model's choice, log 1. -/
def Obligations.StepRunsTheDecodedOperation : Prop :=
  ∀ (s : State) (c : HostCall) (rest : List HostCall) (i : Instr),
    s.seq = .idle → s.pending = c :: rest → decodeHost c = .ok i → i.wellFormed s.cfg.instanceIdW = true →
      step s = exec i { s with pending := rest }

/-- R281: in IDLE with no call the block waits (one idle step leaves the state as it is: log 1). A call with an operand wider
than INSTANCE_ID_W, which no host can make, is refused: the model's choice, log 6. -/
def Obligations.StepWaitsForACall : Prop :=
  ∀ s : State, s.seq = .idle →
    (s.pending = [] → step s = .next s) ∧
    (∀ c rest bus ident, s.pending = c :: rest → decodeHost c = .ok (.init bus ident) → 0 < ident →
      2 ^ s.cfg.instanceIdW ≤ ident → step s = .refused .operandTooWide)

/-- R32: outside IDLE a step is one move of the sequencer: SEQ goes where the row of R32 for its state says (`rowOf`: by ok, by
STATUS after the read, by INIT_ABORT_EARLY, by the CRC comparison, else unconditionally), the bit of that row is returned where
the operation ends there and none is returned where it goes on, and the host's calls wait. One row a step is the model's
choice of granularity, R11 and log 1. -/
def Obligations.StepOutsideIdleMovesTheSequencer : Prop :=
  ∀ s : State, s.seq ≠ .idle → s.hangAt = none → ∃ t, step s = .next t ∧ t = seqStep s ∧
    t.seq = (rowOf s).next ∧
    (∀ b, (rowOf s).returned = some b → t.ret = some b) ∧
    ((rowOf s).returned = none → t.ret = s.ret) ∧
    t.pending = s.pending

/-- R33, U7: a host operation is accepted only in IDLE. -/
def Obligations.HostOperationsAreRefusedOutsideIdle : Prop :=
  ∀ (i : Instr) (s : State), i.layer = .host → s.seq ≠ .idle → exec i s = .refused .busy

/-- U9: an operation one of whose collaborator calls never returns never ends; any other is unaffected. Which event of the
trace is the call that never returns is a field of the model, log 11. -/
def Obligations.ACallThatNeverReturnsStopsItsOperation : Prop :=
  ∀ (i : Instr) (s t : State) (k : Nat), s.hangAt = none → exec i s = .next t →
    (s.trace.length ≤ k → k < t.trace.length → exec i { s with hangAt := some k } = .fault .collaboratorHang) ∧
    (k < s.trace.length ∨ t.trace.length ≤ k → exec i { s with hangAt := some k } = .next { t with hangAt := some k })

/-- R280, R50: what the spec gives the block at power-on. -/
def Obligations.PowerOnState : Prop :=
  State.reset.seq = .idle ∧ State.reset.initialized = false ∧ State.reset.busOpen = false

/-! ### Bus operations -/

/-- R157, R162: a conversion start sends one byte, and-s its flag into STATUS and moves on; nothing else changes. -/
def Obligations.ConversionStartsSendOneCommand : Prop :=
  ∀ s : State, s.hangAt = none →
    let rT := Request.busWrite (BitVec.ofNat 8 (2 * s.osr.toNat ||| s.cfg.flagTemp.toNat))
    let rP := Request.busWrite (BitVec.ofNat 8 (2 * s.osr.toNat ||| s.cfg.flagPress.toNat))
    exec .cmdConvT s = .next { s with
      status := s.status && (busAnswer rT s).ok, seq := .meaTWait,
      env := envAfter s.cfg s.txn s.env rT, txn := s.txn + 1, trace := s.trace ++ [.txn rT (busAnswer rT s)] } ∧
    exec .cmdConvP s = .next { s with
      status := s.status && (busAnswer rP s).ok, seq := .meaPWait,
      env := envAfter s.cfg s.txn s.env rP, txn := s.txn + 1, trace := s.trace ++ [.txn rP (busAnswer rP s)] }

/-- R159, R66: an ADC read latches three bytes big-endian into its destination, also when it failed; nothing else changes. -/
def Obligations.AdcReadLatchesThreeBytes : Prop :=
  ∀ s : State, s.hangAt = none →
    let r := Request.busWriteRead s.cfg.cmdAdcRead 3
    ∃ a b c, (busAnswer r s).data = [a, b, c] ∧
      exec (.cmdAdcrd .temperature) s = .next { s with
        rawT := threeBytes a b c, status := s.status && (busAnswer r s).ok,
        env := envAfter s.cfg s.txn s.env r, txn := s.txn + 1, trace := s.trace ++ [.txn r (busAnswer r s)] } ∧
      exec (.cmdAdcrd .pressure) s = .next { s with
        rawP := threeBytes a b c, status := s.status && (busAnswer r s).ok,
        env := envAfter s.cfg s.txn s.env r, txn := s.txn + 1, trace := s.trace ++ [.txn r (busAnswer r s)] }

/-- R141, R65: a PROM read writes W[i] big-endian when it succeeded; after a failure only W[i] is unknown. -/
def Obligations.PromReadLatchesItsWord : Prop :=
  ∀ (k : Fin 7) (s : State), s.hangAt = none →
    let r := Request.busWriteRead (BitVec.ofNat 8 (s.cfg.promBase.toNat + 2 * k.val)) 2
    ∃ a b v, (busAnswer r s).data = [a, b] ∧
      ((busAnswer r s).ok = true → v = BitVec.ofNat 16 (a.toNat * 256 + b.toNat)) ∧
      exec (.cmdPromrd k) s = .next { s with
        w := s.w.set k.castSucc v, status := s.status && (busAnswer r s).ok,
        env := envAfter s.cfg s.txn s.env r, txn := s.txn + 1, trace := s.trace ++ [.txn r (busAnswer r s)] }

/-- R20: a write of W[i] changes W[i] and no other word. -/
def Obligations.PromBufferReadAfterWrite : Prop :=
  ∀ (b : PromBuf) (i j : Fin 8) (v : Word16), (b.set i v).get j = if i = j then v else b.get j

/-- R166, R227: the reset command, and RESET, which is that command under BUS_OPEN = 1: one event, STATUS and the returned
bit are its success flag, SEQ is IDLE, every other register keeps its value (R51). -/
def Obligations.ResetSendsOneCommandAndChangesNothingElse : Prop :=
  ∀ s : State, s.hangAt = none →
    let r := Request.busWrite s.cfg.cmdReset
    let t := { s with
      status := (busAnswer r s).ok, seq := SeqState.idle, ret := some (busAnswer r s).ok,
      env := envAfter s.cfg s.txn s.env r, txn := s.txn + 1, trace := s.trace ++ [.txn r (busAnswer r s)] }
    exec .cmdReset s = .next t ∧ (s.seq = .idle → s.busOpen = true → exec .reset s = .next t)

/-- R227, U5: RESET with BUS_OPEN = 0 is refused. -/
def Obligations.ResetNeedsAnOpenTransport : Prop :=
  ∀ s : State, s.seq = .idle → s.busOpen = false → exec .reset s = .refused .transportNotOpen

/-! ### The CRC validator -/

/-- R129: the 16-bit algorithm of R124 is the bit-serial CRC-4 in both its forms, and the low 12 bits end at zero. -/
def Obligations.CrcEqualsBothBitSerialForms : Prop :=
  ∀ w : PromBuf, (crcRemainder w).extractLsb' 0 12 = 0#12 ∧ crc4 w = formA w ∧ crc4 w = formB w

/-- R130 (a): every single-bit flip in the 7-word block turns a passing block into a failing one. -/
def Obligations.EverySingleBitFlipIsDetected : Prop :=
  ∀ (w : PromBuf) (i : Fin 7) (j : Fin 16), passes w → ¬ passes (flipBit w i j)

/-- R131: the table of corner cases: final remainder, computed CRC, expected CRC, and whether the block passes. -/
def Obligations.CrcCornerCases : Prop :=
  crcRow ⟨0, 0, 0, 0, 0, 0, 0, 0⟩ 0x0000 0x0 0x0 true ∧
  crcRow ⟨0xFFFF, 0xFFFF, 0xFFFF, 0xFFFF, 0xFFFF, 0xFFFF, 0xFFFF, 0⟩ 0xB000 0xB 0xF false ∧
  crcRow ⟨0x0FFF, 0, 0, 0, 0, 0, 0, 0⟩ 0x7000 0x7 0x0 false ∧
  crcRow ⟨0x7FFF, 0, 0, 0, 0, 0, 0, 0⟩ 0x7000 0x7 0x7 true ∧
  crcRow ⟨0x0001, 0, 0, 0, 0, 0, 0, 0⟩ 0x8000 0x8 0x0 false ∧
  crcRow ⟨0, 0, 0, 0, 0, 0, 0x0001, 0⟩ 0xF000 0xF 0x0 false ∧
  crcRow ⟨0, 0, 0, 0, 0, 0, 0x8000, 0⟩ 0xF000 0xF 0x0 false ∧
  crcRow ⟨0x8000, 0xB524, 0xABCD, 0x7183, 0x6CC2, 0x7B41, 0x6E05, 0⟩ 0x8000 0x8 0x8 true ∧
  crcRow ⟨0x9ABC, 0x1234, 0x5678, 0x9ABC, 0xDEF0, 0x1357, 0x2468, 0⟩ 0x9000 0x9 0x9 true

/-- R124 to R126: the check writes its working registers, CRC_OK and W[7]; W[0] to W[6] and all else stay. The computed CRC
is that of form A (R129). -/
def Obligations.CrcCheckEffect : Prop :=
  ∀ (expd : Nibble) (s : State), ∃ regs : CrcRegs,
    regs.remd.extractLsb' 12 4 = formA s.w ∧ regs.save0 = s.w.w0 ∧ regs.expd = expd ∧
    exec (.crc4Chk expd) s = .next { s with
      w := { s.w with w7 := 0 }, crc := regs, crcOk := decide (formA s.w = expd), ret := some (decide (formA s.w = expd)) }

/-- R126, R127: whether the comparison succeeds or fails, the buffer is as before but for W[7], which is zero; calling the
validator twice gives the same bit and leaves the buffer as the first call left it; what W[7] held does not matter. -/
def Obligations.CrcCheckIsIdempotent : Prop :=
  ∀ (expd : Nibble) (s : State) (v : Word16), ∃ t,
    exec (.crc4Chk expd) s = .next t ∧ exec (.crc4Chk expd) t = .next t ∧
    exec (.crc4Chk expd) { s with w := { s.w with w7 := v } } = .next t ∧
    t.w = { s.w with w7 := 0 }

/-! ### The calibration loader -/

/-- R146, R147: seven good reads of a block that passes: the whole state after PROM.LOAD. -/
def Obligations.PromLoadCommitsAPassingBlock : Prop :=
  ∀ (s : State) (b : PromBuf) (rest : List Answer), s.hangAt = none → s.env = .script (promAnswers b ++ rest) → passes b →
    ∃ cnt nbit : Nibble, exec .promLoad s = .next { s with
      w := { b with w7 := 0 }, crcn := b.w0.extractLsb' 12 4, crc := ⟨crcRemainder b, cnt, nbit, b.w0, b.w0.extractLsb' 12 4⟩,
      crcOk := true, status := true, coef := ⟨b.w1, b.w2, b.w3, b.w4, b.w5, b.w6⟩, osr := s.cfg.osrOrd, ret := some true,
      env := .script rest, txn := s.txn + 7, trace := s.trace ++ promEvents s b }

/-- R145: seven good reads of a block that does not pass: false, no coefficient and no OSR written, INITIALIZED as it was. -/
def Obligations.PromLoadRejectsACorruptBlock : Prop :=
  ∀ (s : State) (b : PromBuf) (rest : List Answer), s.hangAt = none → s.env = .script (promAnswers b ++ rest) → ¬ passes b →
    ∃ cnt nbit : Nibble, exec .promLoad s = .next { s with
      w := { b with w7 := 0 }, crcn := b.w0.extractLsb' 12 4, crc := ⟨crcRemainder b, cnt, nbit, b.w0, b.w0.extractLsb' 12 4⟩,
      crcOk := false, status := true, ret := some false,
      env := .script rest, txn := s.txn + 7, trace := s.trace ++ promEvents s b }

/-- R142, R148: any failed read makes PROM.LOAD return false; the validator is not invoked and nothing but W[0..6] and
STATUS is written. INIT_ABORT_EARLY decides only how many reads follow. That W[7] is then not written, although R28 says
that it is zero after every PROM.LOAD, is the model's reading, log 19. -/
def Obligations.PromLoadFailsOnAnyFailedRead : Prop :=
  ∀ s : State, s.hangAt = none → ∃ t, exec .promLoad s = .next t ∧
    ((newEvents s t).map askOf = (promAsks s).take (newEvents s t).length) ∧
    (s.cfg.initAbortEarly = true → ∀ e ∈ (newEvents s t).dropLast, failed e = false) ∧
    ((newEvents s t).length = 7 ∨
      (s.cfg.initAbortEarly = true ∧ (newEvents s t).length < 7 ∧ ∃ e ∈ newEvents s t, failed e = true)) ∧
    ((∃ e ∈ newEvents s t, failed e = true) →
      t = { s with
        w := { t.w with w7 := s.w.w7 }, status := false, ret := some false, env := t.env, txn := t.txn, trace := t.trace })

/-! ### The conversion sequencer -/

/-- R155, R165, R167: the whole state after a measurement cycle, for every answer of the four transactions: no early exit,
STATUS the and of the four flags. -/
def Obligations.ConvSeqRunsBothPhases : Prop :=
  ∀ (s : State) (ok1 ok2 ok3 ok4 : Bool) (a b c d e f : Byte) (rest : List Answer), s.hangAt = none →
    s.env = .script (⟨ok1, []⟩ :: ⟨ok2, [a, b, c]⟩ :: ⟨ok3, []⟩ :: ⟨ok4, [d, e, f]⟩ :: rest) →
    let all := ok1 && ok2 && ok3 && ok4
    exec .convSeq s = .next { s with
      rawT := threeBytes a b c, rawP := threeBytes d e f, status := all, ret := some all,
      seq := if all then .meaComp else .idle, env := .script rest, txn := s.txn + 4,
      trace := s.trace ++ measureEvents s ok1 ok2 ok3 ok4 [a, b, c] [d, e, f] }

/-- R155, R165: whoever answers, a cycle has six events in this order, and STATUS says whether none failed. -/
def Obligations.ConvSeqHasSixEvents : Prop :=
  ∀ s : State, s.hangAt = none → ∃ t, exec .convSeq s = .next t ∧ t.trace = s.trace ++ newEvents s t ∧
    (newEvents s t).map askOf = measureAsks s ∧
    t.status = (newEvents s t).all (fun e => !failed e) ∧
    t = { s with
      rawT := t.rawT, rawP := t.rawP, status := t.status, ret := some t.status,
      seq := if t.status then .meaComp else .idle, env := t.env, txn := t.txn, trace := t.trace }

/-! ### The compensation engine -/

/-- R175, R193: COMP writes the pipeline registers and hands over its result (in `compRet`, log 7); no other register, the cache
among them. -/
def Obligations.CompWritesOnlyThePipeline : Prop :=
  ∀ s : State, ∃ p : Pipe, intsOf p = intPipelineOf s ∧
    exec .comp s = .next { s with
      pipe := p
      compRet := ⟨p.tout, p.p, roundCenti s.cfg.floatFmt (intPipelineOf s).tout, roundCenti s.cfg.floatFmt (intPipelineOf s).p⟩ }

/-- R176, R193, R194: the s64 pipeline computes what the pipeline on mathematical integers computes, for all operands. -/
def Obligations.PipelineEqualsItsIntegerForm : Prop :=
  ∀ (dRawT dRawP : Raw24) (c : Coeffs),
    intsOf (pipeline dRawT dRawP c) =
      intPipeline dRawT.toNat dRawP.toNat c.c1.toNat c.c2.toNat c.c3.toNat c.c4.toNat c.c5.toNat c.c6.toNat

/-- R194: the bounds of every intermediate value, those of the squares and products among them. `(TEMP + 1500)²` is computed
only where TEMP < -1500 (R185), so it is bounded there. -/
def Obligations.PipelineStaysInsideItsBounds : Prop :=
  ∀ (dRawT dRawP : Raw24) (c : Coeffs),
    let q := intPipeline dRawT.toNat dRawP.toNat c.c1.toNat c.c2.toNat c.c3.toNat c.c4.toNat c.c5.toNat c.c6.toNat
    |q.dT| < 2 ^ 24 ∧ |q.dT * c.c6.toNat| < 2 ^ 40 ∧ |q.temp| < 2 ^ 18 ∧ 0 ≤ q.t2 ∧ q.t2 < 2 ^ 17 ∧
    0 ≤ q.off2 ∧ q.off2 < 2 ^ 39 ∧ 0 ≤ q.sens2 ∧ q.sens2 < 2 ^ 38 ∧ |q.off| < 2 ^ 40 ∧ |q.sens| < 2 ^ 38 ∧
    |(dRawP.toNat : Int) * q.sens| < 2 ^ 62 ∧ |q.p| < 2 ^ 27 ∧ |q.tout| < 2 ^ 18 ∧
    q.dT ^ 2 < 2 ^ 48 ∧ 5 * q.dT ^ 2 < 2 ^ 51 ∧ 3 * q.dT ^ 2 < 2 ^ 50 ∧
    (q.temp - 2000) ^ 2 < 2 ^ 35 ∧ 61 * (q.temp - 2000) ^ 2 < 2 ^ 41 ∧
    (q.temp < -1500 → (q.temp + 1500) ^ 2 < 2 ^ 34 ∧ 17 * (q.temp + 1500) ^ 2 < 2 ^ 39) ∧
    (c.c2.toNat : Int) * 2 ^ 17 < 2 ^ 33 ∧ |c.c4.toNat * q.dT| < 2 ^ 40 ∧
    (c.c1.toNat : Int) * 2 ^ 16 < 2 ^ 32 ∧ |c.c3.toNat * q.dT| < 2 ^ 40 ∧
    |(dRawP.toNat : Int) * q.sens / 2 ^ 21| < 2 ^ 41

/-- R182 to R185: which correction applies, by the value of TEMP alone, and each correction's value. -/
def Obligations.CorrectionFollowsTemp : Prop :=
  ∀ (dRawT dRawP : Raw24) (c : Coeffs),
    let q := intsOf (pipeline dRawT dRawP c)
    (2000 ≤ q.temp → q.t2 = 5 * q.dT ^ 2 / 2 ^ 38 ∧ q.off2 = 0 ∧ q.sens2 = 0) ∧
    (q.temp < 2000 → -1500 ≤ q.temp →
      q.t2 = 3 * q.dT ^ 2 / 2 ^ 33 ∧ q.off2 = 61 * (q.temp - 2000) ^ 2 / 16 ∧ q.sens2 = 29 * (q.temp - 2000) ^ 2 / 16) ∧
    (q.temp < -1500 →
      q.t2 = 3 * q.dT ^ 2 / 2 ^ 33 ∧
      q.off2 = 61 * (q.temp - 2000) ^ 2 / 16 + 17 * (q.temp + 1500) ^ 2 ∧
      q.sens2 = 29 * (q.temp - 2000) ^ 2 / 16 + 9 * (q.temp + 1500) ^ 2)

/-- R196: the temperature does not depend on D_P or on C1 to C4. -/
def Obligations.TemperatureIgnoresThePressureOperands : Prop :=
  ∀ s s' t t' : State, s.rawT = s'.rawT → s.coef.c5 = s'.coef.c5 → s.coef.c6 = s'.coef.c6 →
    exec .comp s = .next t → exec .comp s' = .next t' →
    t.pipe.temp = t'.pipe.temp ∧ t.pipe.t2 = t'.pipe.t2 ∧ t.pipe.off2 = t'.pipe.off2 ∧ t.pipe.sens2 = t'.pipe.sens2 ∧
    t.compRet.tCenti = t'.compRet.tCenti

/-- R199: the worked example. -/
def Obligations.WorkedExampleOfTheCompensation : Prop :=
  intsOf (pipeline 8077636 6465444 ⟨46372, 43981, 29059, 27842, 31553, 28165⟩) =
    ⟨68, 2000, 0, 0, 0, 5764707214, 3039050829, 110002, 2000⟩

/-- R192, D17: in binary32 the reading has the sign of the integer, and its distance from the hundredth is below half a unit in
the last place (`2 ^ (e - 24)` where the hundredth lies in `[2 ^ e, 2 ^ (e + 1))`), over the whole range of R194; zero is the
positive zero. The bound is strict, so the reading is the one nearest value of the format: in this range no hundredth lies
halfway between two, and the rule for ties never applies. How the model rounds and holds the formats is log 12. -/
def Obligations.Binary32ReadingIsCorrectlyRounded : Prop :=
  ∀ c : Int, c.natAbs < 2 ^ 27 →
    let v := roundCenti .binary32 c
    let x : ℚ := (c.natAbs : ℚ) / 100
    v.toNat < 2 ^ 32 ∧ binary32Negative v = decide (c < 0) ∧ (c = 0 → v = 0) ∧
    ∀ e : ℤ, (2 : ℚ) ^ e ≤ x → x < (2 : ℚ) ^ (e + 1) → |binary32Magnitude v - x| < (2 : ℚ) ^ (e - 24)

/-! ### The event adapter -/

/-- R212, R109: the record of a channel, from its descriptor and the cache; no register is written, no event is made. The
timestamp is the next free draw: log 10. -/
def Obligations.EvtFillPackagesTheCache : Prop :=
  ∀ s : State,
    exec (.evtFill .temperature) s = .next { s with
      evtOut := some ⟨.temperature, s.chT.params.sensorId, Config.now s.stamps, s.cache.tRead⟩, stamps := s.stamps + 1 } ∧
    exec (.evtFill .pressure) s = .next { s with
      evtOut := some ⟨.pressure, s.chP.params.sensorId, Config.now s.stamps, s.cache.pRead⟩, stamps := s.stamps + 1 }

/-- R210, R211: GETEVT returns the record of its channel and true; no register of the block changes. The timestamp is the
next free draw: log 10. -/
def Obligations.GetEventReturnsTheCachedReading : Prop :=
  ∀ s : State, s.seq = .idle → s.initialized = true →
    exec .getevtT s = .next { s with
      evtOut := some ⟨.temperature, s.chT.params.sensorId, Config.now s.stamps, s.cache.tRead⟩, stamps := s.stamps + 1,
      ret := some true } ∧
    exec .getevtP s = .next { s with
      evtOut := some ⟨.pressure, s.chP.params.sensorId, Config.now s.stamps, s.cache.pRead⟩, stamps := s.stamps + 1,
      ret := some true }

/-- R214, R215: GETMETA returns the channel's constant record; nothing else changes. -/
def Obligations.GetMetadataReturnsTheChannel : Prop :=
  ∀ s : State, s.seq = .idle → s.initialized = true →
    exec .getmetaT s = .next { s with metaOut := some s.chT, ret := some true } ∧
    exec .getmetaP s = .next { s with metaOut := some s.chP, ret := some true }

/-- R214, R215 on the ready block: GETMETA returns META_T with kind temperature and META_P with kind pressure. -/
def Obligations.GetMetadataOfAReadyBlock : Prop :=
  ∀ s t t' : State, Inv s → exec .getmetaT s = .next t → exec .getmetaP s = .next t' →
    t.metaOut = some ⟨.temperature, s.cfg.metaT⟩ ∧ t'.metaOut = some ⟨.pressure, s.cfg.metaP⟩

/-- R232, R210, R214, U1, U6: without a successful INIT there is no measurement, no event and no metadata. -/
def Obligations.NothingIsMeasuredBeforeInit : Prop :=
  ∀ (s : State) (p t h : Bool), s.seq = .idle → s.initialized = false →
    exec (.measure p t h) s = .refused .notInitialized ∧ exec .getevtT s = .refused .notInitialized ∧
    exec .getevtP s = .refused .notInitialized ∧ exec .getmetaT s = .refused .notInitialized ∧
    exec .getmetaP s = .refused .notInitialized

/-! ### INIT -/

/-- R226, R146: an INIT whose open and reads succeed on a block that passes: the whole state after it. -/
def Obligations.InitLoadsAPassingBlock : Prop :=
  ∀ (s : State) (bus ident : Nat) (b : PromBuf) (rest : List Answer), quiet s →
    s.env = .script (⟨true, []⟩ :: promAnswers b ++ rest) → passes b →
    ∃ cnt nbit : Nibble, exec (.init bus ident) s = .next { s with
      initialized := true, instanceId := ident, busHandle := bus, busOpen := true, status := true,
      w := { b with w7 := 0 }, crcn := b.w0.extractLsb' 12 4, crc := ⟨crcRemainder b, cnt, nbit, b.w0, b.w0.extractLsb' 12 4⟩,
      crcOk := true, coef := ⟨b.w1, b.w2, b.w3, b.w4, b.w5, b.w6⟩, osr := s.cfg.osrOrd,
      chT := ⟨.temperature, s.cfg.metaT⟩, chP := ⟨.pressure, s.cfg.metaP⟩, ret := some true,
      env := .script rest, txn := s.txn + 8,
      trace := s.trace ++ .txn (.busOpen bus s.cfg.devAddr) ⟨true, []⟩ :: promEvents s b }

/-- R226, R145, R268 (third row): the same reads of a block that does not pass: false, not ready, no coefficient written. -/
def Obligations.InitRejectsACorruptBlock : Prop :=
  ∀ (s : State) (bus ident : Nat) (b : PromBuf) (rest : List Answer), quiet s →
    s.env = .script (⟨true, []⟩ :: promAnswers b ++ rest) → ¬ passes b →
    ∃ cnt nbit : Nibble, exec (.init bus ident) s = .next { s with
      initialized := false, instanceId := ident, busHandle := bus, busOpen := true, status := true,
      w := { b with w7 := 0 }, crcn := b.w0.extractLsb' 12 4, crc := ⟨crcRemainder b, cnt, nbit, b.w0, b.w0.extractLsb' 12 4⟩,
      crcOk := false, ret := some false, env := .script rest, txn := s.txn + 8,
      trace := s.trace ++ .txn (.busOpen bus s.cfg.devAddr) ⟨true, []⟩ :: promEvents s b }

/-- R226, R268 (first row): an INIT whose BusOpen fails: one event, false, not ready, transport not open. STATUS = 0 after it
is read from R37 by inference, log 15. -/
def Obligations.InitStopsWhenTheTransportDoesNotOpen : Prop :=
  ∀ (s : State) (bus ident : Nat), quiet s →
    let r := Request.busOpen bus s.cfg.devAddr
    (busAnswer r s).ok = false →
    exec (.init bus ident) s = .next { s with
      initialized := false, instanceId := ident, busHandle := bus, busOpen := false, status := false, ret := some false,
      env := envAfter s.cfg s.txn s.env r, txn := s.txn + 1, trace := s.trace ++ [.txn r (busAnswer r s)] }

/-- R226, R142, R254, R268: whoever answers, INIT returns to IDLE and returns what INITIALIZED then is; any failed
transaction makes that false and keeps the validator from running; and INIT does not touch the reading, the records, the raw
values or the pipeline. That W[7] is not written after a failed read is log 19. -/
def Obligations.InitReturnsWhetherTheBlockIsReady : Prop :=
  ∀ (s : State) (bus ident : Nat), quiet s → ∃ t, exec (.init bus ident) s = .next t ∧
    t.ret = some t.initialized ∧ (t.initialized = true → readyBlock t) ∧
    ((∃ e ∈ newEvents s t, failed e = true) →
      t.initialized = false ∧ t.crc = s.crc ∧ t.crcn = s.crcn ∧ t.crcOk = s.crcOk ∧ t.w.w7 = s.w.w7) ∧
    (t.initialized = false → t.coef = s.coef ∧ t.osr = s.osr ∧ t.chT = s.chT ∧ t.chP = s.chP) ∧
    t = { s with
      initialized := t.initialized, instanceId := ident, busHandle := bus, busOpen := t.busOpen, status := t.status,
      w := t.w, crcn := t.crcn, crc := t.crc, crcOk := t.crcOk, coef := t.coef, osr := t.osr, chT := t.chT, chP := t.chP,
      ret := t.ret, env := t.env, txn := t.txn, trace := t.trace }

/-- R237, R142: the events of INIT: the open, then PROM reads in order: none after a failed open, all seven when nothing is
cut short, and with INIT_ABORT_EARLY none after a failed one. -/
def Obligations.InitEventsComeInOrder : Prop :=
  ∀ (s : State) (bus ident : Nat), quiet s → ∃ t e reads, exec (.init bus ident) s = .next t ∧
    t.trace = s.trace ++ e :: reads ∧ askOf e = .transaction (.busOpen bus s.cfg.devAddr) ∧
    reads.map askOf = (promAsks s).take reads.length ∧
    (failed e = true → reads = []) ∧
    (failed e = false → s.cfg.initAbortEarly = false → reads.length = 7) ∧
    (failed e = false → (∀ x ∈ reads, failed x = false) → reads.length = 7) ∧
    (s.cfg.initAbortEarly = true → ∀ x ∈ reads.dropLast, failed x = false)

/-! ### MEASURE -/

/-- R228, R229, R231: a MEASURE whose cycle succeeds: the whole state after it. Both values are committed whatever the want
flags are; a flag selects its record. `compRet` and `want` hold the result and the flags inside the operation: log 7. Of D_T
and D_P nothing is said, because no claim may read them outside a cycle (R23, log 18). -/
def Obligations.MeasureCommitsTheReading : Prop :=
  ∀ (s : State) (p t h : Bool) (a b c d e f : Byte) (rest : List Answer), quiet s → s.initialized = true →
    s.env = .script (⟨true, []⟩ :: ⟨true, [a, b, c]⟩ :: ⟨true, []⟩ :: ⟨true, [d, e, f]⟩ :: rest) →
    let q := pipeline (threeBytes a b c) (threeBytes d e f) s.coef
    let r : Reading := ⟨q.tout, q.p, roundCenti s.cfg.floatFmt q.tout.toInt, roundCenti s.cfg.floatFmt q.p.toInt⟩
    ∃ dT dP : Raw24, exec (.measure p t h) s = .next { s with
      rawT := dT, rawP := dP, status := true, pipe := q, compRet := r, cache := r,
      want := ⟨p, t⟩, ret := some true,
      recP := if p then ⟨.pressure, s.chP.params.sensorId, Config.now s.stamps, r.pRead⟩ else s.recP,
      recT := if t then ⟨.temperature, s.chT.params.sensorId, Config.now (s.stamps + p.toNat), r.tRead⟩ else s.recT,
      stamps := s.stamps + p.toNat + t.toNat, env := .script rest, txn := s.txn + 4,
      trace := s.trace ++ measureEvents s true true true true [a, b, c] [d, e, f] }

/-- R233, R256, R268 (fourth row): whoever answers, MEASURE returns whether none of its transactions failed, and a failed one
leaves the cache, the records, the calibration and the pipeline bit for bit. -/
def Obligations.FailedMeasureKeepsTheReading : Prop :=
  ∀ (s : State) (p t h : Bool), quiet s → s.initialized = true → ∃ u, exec (.measure p t h) s = .next u ∧
    u.ret = some ((newEvents s u).all fun e => !failed e) ∧
    (u.ret = some false → u = { s with
      rawT := u.rawT, rawP := u.rawP, status := false, want := ⟨p, t⟩, ret := some false, env := u.env, txn := u.txn,
      trace := u.trace })

/-- R155, R165, R237: a MEASURE makes the same six requests whatever the answers and the want flags are. -/
def Obligations.MeasureAlwaysMakesSixEvents : Prop :=
  ∀ (s : State) (p t h : Bool), quiet s → s.initialized = true → ∃ u, exec (.measure p t h) s = .next u ∧
    u.trace = s.trace ++ newEvents s u ∧ (newEvents s u).map askOf = measureAsks s ∧ u.txn = s.txn + 4

/-- R230: the humidity flag has no effect of any kind, and the host's humidity record keeps what it held. -/
def Obligations.HumidityFlagHasNoEffect : Prop :=
  ∀ (s : State) (p t : Bool), exec (.measure p t true) s = exec (.measure p t false) s ∧
    ∀ u, exec (.measure p t true) s = .next u → u.recH = s.recH

/-- R256, R216, S7: after a failed MEASURE, GETEVT still completes and returns the value cached before it. -/
def Obligations.StaleReadingIsReturnedAfterAFailedMeasure : Prop :=
  ∀ (s u : State) (p t h : Bool), quiet s → exec (.measure p t h) s = .next u → u.ret = some false →
    ∃ v v' r r', exec .getevtT u = .next v ∧ exec .getevtP u = .next v' ∧ v.evtOut = some r ∧ v'.evtOut = some r' ∧
      r.value = s.cache.tRead ∧ r'.value = s.cache.pRead ∧ v.ret = some true ∧ v'.ret = some true

/-! ### The whole machine -/

/-- R11, R32: the sequencer's small steps, from the state in which it accepted the operation, reach in at most ten steps
exactly what the operation's big step answers, a hang included. -/
def Obligations.SequencerReachesTheBigStep : Prop :=
  ∀ (i : Instr) (s : State), s.seq = .idle →
    ((i = .reset ∧ s.busOpen = true) ∨ (∃ bus ident, i = .init bus ident) ∨
      ((∃ p t h, i = .measure p t h) ∧ s.initialized = true)) →
    ∃ n ≤ 10, Sys2Proof.core.run n (accept i s) = exec i s

/-- R35, R259: every step keeps the invariant: INITIALIZED = 1 only over a calibration that passed its check. -/
def Obligations.EveryStepKeepsTheCalibrationTrusted : Prop :=
  ∀ s t : State, Inv s → step s = .next t → Inv t

/-- The invariant holds after power-on. -/
def Obligations.PowerOnMeetsTheInvariant : Prop := Inv State.reset

/-- R43: no step writes a constant; nor the humidity record (R230), which no operation fills. -/
def Obligations.ConstantsAreNeverWritten : Prop :=
  ∀ s t : State, step s = .next t → t.cfg = s.cfg ∧ t.recH = s.recH

/-- R21, C2, R35: coefficients and OSR change, and INITIALIZED is set, only by an INIT that returned true. -/
def Obligations.OnlyASuccessfulInitWritesTheCalibration : Prop :=
  ∀ s t : State, step s = .next t →
    (t.coef = s.coef ∧ t.osr = s.osr ∧ (t.initialized = true → s.initialized = true)) ∨
    (t.initialized = true ∧ t.ret = some true ∧
      (s.seq = .iniCommit ∨ (s.seq = .idle ∧ ∃ bus ident, nextCall s (.init bus ident))))

/-- R26, R216: the reading cache changes only by a MEASURE that returned true. -/
def Obligations.OnlyASuccessfulMeasureWritesTheReading : Prop :=
  ∀ s t : State, step s = .next t →
    t.cache = s.cache ∨
    (t.ret = some true ∧ (s.seq = .meaCommit ∨ (s.seq = .idle ∧ ∃ p q h, nextCall s (.measure p q h))))

/-- R75, R104, R237: a step only appends events, and asks only for what the address map allows. -/
def Obligations.StepsAskOnlyForAllowedEvents : Prop :=
  ∀ s t : State, step s = .next t → t.trace = s.trace ++ newEvents s t ∧ ∀ e ∈ newEvents s t, allowedAsk s (askOf e)

/-- R104: in a state that meets the invariant a step asks for no conversion at a resolution other than OSR_ORD, for no PROM word
but the seven, and for no byte outside the five families. -/
def Obligations.ConversionsAreAskedForAtTheConfiguredResolution : Prop :=
  ∀ s t : State, Inv s → step s = .next t → ∀ e ∈ newEvents s t, configuredAsk s (askOf e)

/-- R225: a host operation that completes leaves SEQ in IDLE and returns one bit. -/
def Obligations.HostOperationsReturnToIdle : Prop :=
  ∀ (i : Instr) (s t : State), i.layer = .host → exec i s = .next t → t.seq = .idle ∧ t.ret.isSome = true

/-! ### The ideal sensor -/

/-- R81, R226: against the ideal sensor without failures INIT loads its PROM if that passes. The sensor as an environment
of the model, and that a byte which is both a PROM read and CMD_ADC_READ reads the PROM word, is the model's choice, log 9. -/
def Obligations.IdealSensorLoadsItsProm : Prop :=
  ∀ (s : State) (sn : Sensor) (bus ident : Nat), quiet s → s.env = .ideal sn → sn.fails = [] → passes (sensorProm sn) →
    ∃ t, exec (.init bus ident) s = .next t ∧ t.ret = some true ∧ t.w = sensorProm sn ∧
      t.coef = coeffsOf (sensorProm sn) ∧ t.env = .ideal sn

/-- R81, R228: against the ideal sensor without failures the cycle of a ready block ends in MEA_COMP with its two raw values,
each read after its own conversion, and MEASURE commits the reading computed from them. The raw values are read inside the cycle
only (R23, log 18). The sensor as an environment of the model is log 9. -/
def Obligations.IdealSensorIsMeasured : Prop :=
  ∀ (s : State) (sn : Sensor) (p t h : Bool), quiet s → s.initialized = true → s.env = .ideal sn → sn.fails = [] →
    s.osr = s.cfg.osrOrd → distinctCommands s.cfg →
    let q := pipeline sn.rawT sn.rawP s.coef
    (∃ v, exec .convSeq s = .next v ∧ v.seq = .meaComp ∧ v.rawT = sn.rawT ∧ v.rawP = sn.rawP) ∧
    ∃ u, exec (.measure p t h) s = .next u ∧ u.ret = some true ∧ u.env = .ideal { sn with adc := sn.rawP } ∧
      u.cache = ⟨q.tout, q.p, roundCenti s.cfg.floatFmt q.tout.toInt, roundCenti s.cfg.floatFmt q.p.toInt⟩
end

