-- ==== Sys2Proof/Laws/State.lean ====
section
/-!
SUPPORT. One lemma per field per update of the state, each true by rfl. The updates written as one record are tagged
`simps` where they stand, which states these lemmas for them (`State.goto_seq`, `busNext_trace`, `delay_cfg` and so on);
here are the lemmas of the updates that are compositions or cases, and of the PROM buffer.
-/

namespace Sys2Proof.Machine

/-! ### A transaction with its effect on STATUS -/

@[simp] theorem transact_cfg (r : Request) (s : State) : (transact r s).cfg = s.cfg := rfl
@[simp] theorem transact_seq (r : Request) (s : State) : (transact r s).seq = s.seq := rfl
@[simp] theorem transact_w (r : Request) (s : State) : (transact r s).w = s.w := rfl
@[simp] theorem transact_coef (r : Request) (s : State) : (transact r s).coef = s.coef := rfl
@[simp] theorem transact_crcn (r : Request) (s : State) : (transact r s).crcn = s.crcn := rfl
@[simp] theorem transact_rawT (r : Request) (s : State) : (transact r s).rawT = s.rawT := rfl
@[simp] theorem transact_rawP (r : Request) (s : State) : (transact r s).rawP = s.rawP := rfl
@[simp] theorem transact_crc (r : Request) (s : State) : (transact r s).crc = s.crc := rfl
@[simp] theorem transact_pipe (r : Request) (s : State) : (transact r s).pipe = s.pipe := rfl
@[simp] theorem transact_cache (r : Request) (s : State) : (transact r s).cache = s.cache := rfl
@[simp] theorem transact_initialized (r : Request) (s : State) : (transact r s).initialized = s.initialized := rfl
@[simp] theorem transact_busOpen (r : Request) (s : State) : (transact r s).busOpen = s.busOpen := rfl
@[simp] theorem transact_status (r : Request) (s : State) : (transact r s).status = (s.status && (busAnswer r s).ok) := rfl
@[simp] theorem transact_crcOk (r : Request) (s : State) : (transact r s).crcOk = s.crcOk := rfl
@[simp] theorem transact_osr (r : Request) (s : State) : (transact r s).osr = s.osr := rfl
@[simp] theorem transact_instanceId (r : Request) (s : State) : (transact r s).instanceId = s.instanceId := rfl
@[simp] theorem transact_busHandle (r : Request) (s : State) : (transact r s).busHandle = s.busHandle := rfl
@[simp] theorem transact_chT (r : Request) (s : State) : (transact r s).chT = s.chT := rfl
@[simp] theorem transact_chP (r : Request) (s : State) : (transact r s).chP = s.chP := rfl
@[simp] theorem transact_compRet (r : Request) (s : State) : (transact r s).compRet = s.compRet := rfl
@[simp] theorem transact_want (r : Request) (s : State) : (transact r s).want = s.want := rfl
@[simp] theorem transact_recT (r : Request) (s : State) : (transact r s).recT = s.recT := rfl
@[simp] theorem transact_recP (r : Request) (s : State) : (transact r s).recP = s.recP := rfl
@[simp] theorem transact_recH (r : Request) (s : State) : (transact r s).recH = s.recH := rfl
@[simp] theorem transact_ret (r : Request) (s : State) : (transact r s).ret = s.ret := rfl
@[simp] theorem transact_evtOut (r : Request) (s : State) : (transact r s).evtOut = s.evtOut := rfl
@[simp] theorem transact_metaOut (r : Request) (s : State) : (transact r s).metaOut = s.metaOut := rfl
@[simp] theorem transact_pending (r : Request) (s : State) : (transact r s).pending = s.pending := rfl
@[simp] theorem transact_trace (r : Request) (s : State) : (transact r s).trace = s.trace ++ [.txn r (busAnswer r s)] := rfl
@[simp] theorem transact_env (r : Request) (s : State) : (transact r s).env = envAfter s.cfg s.txn s.env r := rfl
@[simp] theorem transact_txn (r : Request) (s : State) : (transact r s).txn = s.txn + 1 := rfl
@[simp] theorem transact_stamps (r : Request) (s : State) : (transact r s).stamps = s.stamps := rfl
@[simp] theorem transact_hangAt (r : Request) (s : State) : (transact r s).hangAt = s.hangAt := rfl

/-! ### The destination of an ADC read -/

@[simp] theorem latchRaw_cfg (s : State) (d : Channel) (v : Raw24) : (s.latchRaw d v).cfg = s.cfg := by cases d <;> rfl
@[simp] theorem latchRaw_seq (s : State) (d : Channel) (v : Raw24) : (s.latchRaw d v).seq = s.seq := by cases d <;> rfl
@[simp] theorem latchRaw_w (s : State) (d : Channel) (v : Raw24) : (s.latchRaw d v).w = s.w := by cases d <;> rfl
@[simp] theorem latchRaw_coef (s : State) (d : Channel) (v : Raw24) : (s.latchRaw d v).coef = s.coef := by cases d <;> rfl
@[simp] theorem latchRaw_crcn (s : State) (d : Channel) (v : Raw24) : (s.latchRaw d v).crcn = s.crcn := by cases d <;> rfl
@[simp] theorem latchRaw_crc (s : State) (d : Channel) (v : Raw24) : (s.latchRaw d v).crc = s.crc := by cases d <;> rfl
@[simp] theorem latchRaw_pipe (s : State) (d : Channel) (v : Raw24) : (s.latchRaw d v).pipe = s.pipe := by cases d <;> rfl
@[simp] theorem latchRaw_cache (s : State) (d : Channel) (v : Raw24) : (s.latchRaw d v).cache = s.cache := by cases d <;> rfl
@[simp] theorem latchRaw_initialized (s : State) (d : Channel) (v : Raw24) : (s.latchRaw d v).initialized = s.initialized := by cases d <;> rfl
@[simp] theorem latchRaw_busOpen (s : State) (d : Channel) (v : Raw24) : (s.latchRaw d v).busOpen = s.busOpen := by cases d <;> rfl
@[simp] theorem latchRaw_status (s : State) (d : Channel) (v : Raw24) : (s.latchRaw d v).status = s.status := by cases d <;> rfl
@[simp] theorem latchRaw_crcOk (s : State) (d : Channel) (v : Raw24) : (s.latchRaw d v).crcOk = s.crcOk := by cases d <;> rfl
@[simp] theorem latchRaw_osr (s : State) (d : Channel) (v : Raw24) : (s.latchRaw d v).osr = s.osr := by cases d <;> rfl
@[simp] theorem latchRaw_instanceId (s : State) (d : Channel) (v : Raw24) : (s.latchRaw d v).instanceId = s.instanceId := by cases d <;> rfl
@[simp] theorem latchRaw_busHandle (s : State) (d : Channel) (v : Raw24) : (s.latchRaw d v).busHandle = s.busHandle := by cases d <;> rfl
@[simp] theorem latchRaw_chT (s : State) (d : Channel) (v : Raw24) : (s.latchRaw d v).chT = s.chT := by cases d <;> rfl
@[simp] theorem latchRaw_chP (s : State) (d : Channel) (v : Raw24) : (s.latchRaw d v).chP = s.chP := by cases d <;> rfl
@[simp] theorem latchRaw_compRet (s : State) (d : Channel) (v : Raw24) : (s.latchRaw d v).compRet = s.compRet := by cases d <;> rfl
@[simp] theorem latchRaw_want (s : State) (d : Channel) (v : Raw24) : (s.latchRaw d v).want = s.want := by cases d <;> rfl
@[simp] theorem latchRaw_recT (s : State) (d : Channel) (v : Raw24) : (s.latchRaw d v).recT = s.recT := by cases d <;> rfl
@[simp] theorem latchRaw_recP (s : State) (d : Channel) (v : Raw24) : (s.latchRaw d v).recP = s.recP := by cases d <;> rfl
@[simp] theorem latchRaw_recH (s : State) (d : Channel) (v : Raw24) : (s.latchRaw d v).recH = s.recH := by cases d <;> rfl
@[simp] theorem latchRaw_ret (s : State) (d : Channel) (v : Raw24) : (s.latchRaw d v).ret = s.ret := by cases d <;> rfl
@[simp] theorem latchRaw_evtOut (s : State) (d : Channel) (v : Raw24) : (s.latchRaw d v).evtOut = s.evtOut := by cases d <;> rfl
@[simp] theorem latchRaw_metaOut (s : State) (d : Channel) (v : Raw24) : (s.latchRaw d v).metaOut = s.metaOut := by cases d <;> rfl
@[simp] theorem latchRaw_pending (s : State) (d : Channel) (v : Raw24) : (s.latchRaw d v).pending = s.pending := by cases d <;> rfl
@[simp] theorem latchRaw_trace (s : State) (d : Channel) (v : Raw24) : (s.latchRaw d v).trace = s.trace := by cases d <;> rfl
@[simp] theorem latchRaw_env (s : State) (d : Channel) (v : Raw24) : (s.latchRaw d v).env = s.env := by cases d <;> rfl
@[simp] theorem latchRaw_txn (s : State) (d : Channel) (v : Raw24) : (s.latchRaw d v).txn = s.txn := by cases d <;> rfl
@[simp] theorem latchRaw_stamps (s : State) (d : Channel) (v : Raw24) : (s.latchRaw d v).stamps = s.stamps := by cases d <;> rfl
@[simp] theorem latchRaw_hangAt (s : State) (d : Channel) (v : Raw24) : (s.latchRaw d v).hangAt = s.hangAt := by cases d <;> rfl
@[simp] theorem latchRaw_temperature_rawT (s : State) (v : Raw24) : (s.latchRaw .temperature v).rawT = v := rfl
@[simp] theorem latchRaw_temperature_rawP (s : State) (v : Raw24) : (s.latchRaw .temperature v).rawP = s.rawP := rfl
@[simp] theorem latchRaw_pressure_rawT (s : State) (v : Raw24) : (s.latchRaw .pressure v).rawT = s.rawT := rfl
@[simp] theorem latchRaw_pressure_rawP (s : State) (v : Raw24) : (s.latchRaw .pressure v).rawP = v := rfl

/-! ### The check of the PROM buffer (R143, R144) -/

@[simp] theorem checkProm_cfg (s : State) : (checkProm s).cfg = s.cfg := rfl
@[simp] theorem checkProm_seq (s : State) : (checkProm s).seq = s.seq := rfl
@[simp] theorem checkProm_w (s : State) : (checkProm s).w = { s.w with w7 := 0 } := rfl
@[simp] theorem checkProm_coef (s : State) : (checkProm s).coef = s.coef := rfl
@[simp] theorem checkProm_crcn (s : State) : (checkProm s).crcn = crcNibble s.w.w0 := rfl
@[simp] theorem checkProm_rawT (s : State) : (checkProm s).rawT = s.rawT := rfl
@[simp] theorem checkProm_rawP (s : State) : (checkProm s).rawP = s.rawP := rfl
@[simp] theorem checkProm_crc (s : State) : (checkProm s).crc = crcRegsAfter s.w (crcNibble s.w.w0) := rfl
@[simp] theorem checkProm_pipe (s : State) : (checkProm s).pipe = s.pipe := rfl
@[simp] theorem checkProm_cache (s : State) : (checkProm s).cache = s.cache := rfl
@[simp] theorem checkProm_initialized (s : State) : (checkProm s).initialized = s.initialized := rfl
@[simp] theorem checkProm_busOpen (s : State) : (checkProm s).busOpen = s.busOpen := rfl
@[simp] theorem checkProm_status (s : State) : (checkProm s).status = s.status := rfl
@[simp] theorem checkProm_crcOk (s : State) : (checkProm s).crcOk = (crc4 s.w == crcNibble s.w.w0) := rfl
@[simp] theorem checkProm_osr (s : State) : (checkProm s).osr = s.osr := rfl
@[simp] theorem checkProm_instanceId (s : State) : (checkProm s).instanceId = s.instanceId := rfl
@[simp] theorem checkProm_busHandle (s : State) : (checkProm s).busHandle = s.busHandle := rfl
@[simp] theorem checkProm_chT (s : State) : (checkProm s).chT = s.chT := rfl
@[simp] theorem checkProm_chP (s : State) : (checkProm s).chP = s.chP := rfl
@[simp] theorem checkProm_compRet (s : State) : (checkProm s).compRet = s.compRet := rfl
@[simp] theorem checkProm_want (s : State) : (checkProm s).want = s.want := rfl
@[simp] theorem checkProm_recT (s : State) : (checkProm s).recT = s.recT := rfl
@[simp] theorem checkProm_recP (s : State) : (checkProm s).recP = s.recP := rfl
@[simp] theorem checkProm_recH (s : State) : (checkProm s).recH = s.recH := rfl
@[simp] theorem checkProm_ret (s : State) : (checkProm s).ret = s.ret := rfl
@[simp] theorem checkProm_evtOut (s : State) : (checkProm s).evtOut = s.evtOut := rfl
@[simp] theorem checkProm_metaOut (s : State) : (checkProm s).metaOut = s.metaOut := rfl
@[simp] theorem checkProm_pending (s : State) : (checkProm s).pending = s.pending := rfl
@[simp] theorem checkProm_trace (s : State) : (checkProm s).trace = s.trace := rfl
@[simp] theorem checkProm_env (s : State) : (checkProm s).env = s.env := rfl
@[simp] theorem checkProm_txn (s : State) : (checkProm s).txn = s.txn := rfl
@[simp] theorem checkProm_stamps (s : State) : (checkProm s).stamps = s.stamps := rfl
@[simp] theorem checkProm_hangAt (s : State) : (checkProm s).hangAt = s.hangAt := rfl

/-! ### The failure exit, and a write -/

@[simp] theorem raiseFailure_eq (c : FailureCause) (s : State) : raiseFailure c s = hostReturn false s := rfl

@[simp] theorem memWrite_eq (cmd : Byte) (s : State) : memWrite cmd s = transact (.busWrite cmd) s := rfl

/-! ### The PROM buffer -/

@[simp] theorem PromBuf.get_set_self (b : PromBuf) (i : Fin 8) (v : Word16) : (b.set i v).get i = v := by
  fin_cases i <;> rfl

theorem PromBuf.get_set_of_ne (b : PromBuf) {i j : Fin 8} (v : Word16) (h : i ≠ j) : (b.set i v).get j = b.get j := by
  fin_cases i <;> fin_cases j <;> first | rfl | exact absurd rfl h

/-- A PROM read never writes the synthetic word. -/
@[simp] theorem PromBuf.set_bufIndex_w7 (b : PromBuf) (i : Fin 7) (v : Word16) : (b.set (bufIndex i) v).w7 = b.w7 := by
  fin_cases i <;> rfl

end Sys2Proof.Machine
end

