-- ==== Sys2Proof/Laws/Ops.lean ====
section
/-!
SUPPORT. What the shared operations can do: the ends of a meaning, the environment's answers, the bus operations.
-/

namespace Sys2Proof.Machine

/-! ### How a meaning ends -/

theorem finish_of_no_hang {s t : State} (h : s.hangAt = none) : finish s t = .next t := by
  simp [finish, h]

/-- An operation without an event completes whatever hangs. -/
theorem finish_of_trace_eq {s t : State} (h : t.trace = s.trace) : finish s t = .next t := by
  unfold finish
  split
  · rfl
  · rw [if_neg]; rw [h]; omega

/-- Everything `finish` can answer. -/
theorem finish_cases (s t : State) :
    finish s t = .next t ∨
      ∃ k, s.hangAt = some k ∧ s.trace.length ≤ k ∧ k < t.trace.length ∧ finish s t = .fault .collaboratorHang := by
  unfold finish
  split
  · exact .inl rfl
  · rename_i k hk
    by_cases hc : s.trace.length ≤ k ∧ k < t.trace.length
    · exact .inr ⟨k, hk, hc.1, hc.2, if_pos hc⟩
    · exact .inl (if_neg hc)

theorem finish_eq_next {s t u : State} (h : finish s t = .next u) : u = t := by
  rcases finish_cases s t with h' | ⟨_, _, _, _, h'⟩ <;> rw [h'] at h
  · cases h; rfl
  · cases h

theorem hostOperation_eq_next {pre : Bool} {why : Refusal} {s t u : State} (h : hostOperation pre why s t = .next u) :
    s.seq = .idle ∧ pre = true ∧ u = t := by
  unfold hostOperation at h
  split at h
  · rename_i hs
    split at h
    · rename_i hp
      exact ⟨hs, hp, finish_eq_next h⟩
    · cases h
  · cases h

theorem hostOperation_accepted {pre : Bool} {why : Refusal} {s t : State} (hs : s.seq = .idle) (hp : pre = true) :
    hostOperation pre why s t = finish s t := by
  simp [hostOperation, hs, hp]

theorem hostOperation_busy {pre : Bool} {why : Refusal} {s t : State} (hs : s.seq ≠ .idle) :
    hostOperation pre why s t = .refused .busy := by
  simp [hostOperation, hs]

theorem hostOperation_refused {why : Refusal} {s t : State} (hs : s.seq = .idle) :
    hostOperation false why s t = .refused why := by
  simp [hostOperation, hs]

/-! ### Answers -/

@[simp] theorem fitBytes_length (k n : Nat) (given : List Byte) : (fitBytes k n given).length = n := by
  simp [fitBytes]

/-- Bytes of the right number are passed on as they are. -/
theorem fitBytes_of_length {k n : Nat} {given : List Byte} (h : given.length = n) : fitBytes k n given = given := by
  apply List.ext_getElem
  · simp [h]
  · intro j h1 h2
    simp [fitBytes, List.getElem?_eq_getElem h2]

/-- R64: the data have the right length, whoever answers. -/
@[simp] theorem busAnswer_length (r : Request) (s : State) : (busAnswer r s).data.length = r.readLen := by
  unfold busAnswer envAnswer
  split
  · simp [freeAnswer]
  · simp
  · unfold sensorAnswer
    split
    · simp
    · cases r <;> simp [Request.readLen]

theorem busAnswer_script {r : Request} {s : State} {a : Answer} {rest : List Answer} (h : s.env = .script (a :: rest))
    (hl : a.data.length = r.readLen) : busAnswer r s = a := by
  simp [busAnswer, envAnswer, h, fitBytes_of_length hl]

theorem busAnswer_script_ok {r : Request} {s : State} {a : Answer} {rest : List Answer} (h : s.env = .script (a :: rest)) :
    (busAnswer r s).ok = a.ok := by
  simp [busAnswer, envAnswer, h]

theorem envAfter_script {cfg : Params} {k : Nat} {r : Request} {a : Answer} {rest : List Answer} :
    envAfter cfg k (.script (a :: rest)) r = .script rest := rfl

/-- An answer does not depend on SEQ or on anything the block holds but its parameters. -/
theorem busAnswer_congr {r : Request} {s t : State} (hc : s.cfg = t.cfg) (hk : s.txn = t.txn) (he : s.env = t.env) :
    busAnswer r s = busAnswer r t := by
  simp [busAnswer, hc, hk, he]

theorem list_two {l : List Byte} (h : l.length = 2) : ∃ a b, l = [a, b] := by
  match l, h with
  | [a, b], _ => exact ⟨a, b, rfl⟩

theorem list_three {l : List Byte} (h : l.length = 3) : ∃ a b c, l = [a, b, c] := by
  match l, h with
  | [a, b, c], _ => exact ⟨a, b, c, rfl⟩

/-! ### Words of bytes -/

@[simp] theorem promWord_wordBytes (v : Word16) : promWord (wordBytes v) = v := by
  simp only [promWord, wordBytes, List.getD_cons_zero, List.getD_cons_succ]
  apply BitVec.eq_of_getLsbD_eq
  intro i hi
  rw [BitVec.getLsbD_append]
  by_cases h : i < 8
  · simp [h]
  · have h8 : 8 + (i - 8) = i := by omega
    have hd : i - 8 < 8 := by omega
    simp [h, h8, hd]

end Sys2Proof.Machine
end

