-- ==== Sys2Proof/Laws/Units.lean ====
section
/-!
SUPPORT. What the units can do: the bus operations, the loader, the conversion sequencer and the host operations, each by
one equation that says which fields it writes.
-/

namespace Sys2Proof.Machine

/-! ### Words from bytes, in numbers -/

theorem promWord_pair (a b : Byte) : promWord [a, b] = BitVec.ofNat 16 (a.toNat * 256 + b.toNat) := by
  apply BitVec.eq_of_toNat_eq
  have ha := a.isLt
  have hb := b.isLt
  simp only [promWord, List.getD_cons_zero, List.getD_cons_succ, BitVec.toNat_append, BitVec.toNat_ofNat]
  rw [← Nat.shiftLeft_add_eq_or_of_lt hb, Nat.shiftLeft_eq]
  omega

theorem adcWord_triple (a b c : Byte) :
    adcWord [a, b, c] = BitVec.ofNat 24 (a.toNat * 65536 + b.toNat * 256 + c.toNat) := by
  apply BitVec.eq_of_toNat_eq
  have ha := a.isLt
  have hb := b.isLt
  have hc := c.isLt
  simp only [adcWord, List.getD_cons_zero, List.getD_cons_succ, BitVec.toNat_append, BitVec.toNat_ofNat]
  rw [← Nat.shiftLeft_add_eq_or_of_lt hb, ← Nat.shiftLeft_add_eq_or_of_lt hc, Nat.shiftLeft_eq, Nat.shiftLeft_eq]
  omega

/-- The command byte of R93 in unbounded numbers. -/
theorem convByte_eq (osr flag : Byte) : convByte osr flag = BitVec.ofNat 8 (2 * osr.toNat ||| flag.toNat) := by
  apply BitVec.eq_of_toNat_eq
  have hf : flag.toNat % 2 ^ 8 = flag.toNat := Nat.mod_eq_of_lt flag.isLt
  simp only [convByte, BitVec.toNat_or, BitVec.toNat_shiftLeft, BitVec.toNat_ofNat, Nat.or_mod_two_pow, hf]
  rw [Nat.shiftLeft_eq, Nat.mul_comm, pow_one]

/-- The command byte of R94 in unbounded numbers. -/
theorem promrdByte_eq (base : Byte) (i : Fin 7) : promrdByte base i = BitVec.ofNat 8 (base.toNat + 2 * i.val) := by
  apply BitVec.eq_of_toNat_eq
  simp [promrdByte]

theorem settleMs_eq : settleMs = 18 := rfl

/-! ### The bus operations -/

/-- A transaction whose answer is the head of a script. -/
theorem transact_script {r : Request} {s : State} {ok : Bool} {data : List Byte} {rest : List Answer}
    (h : s.env = .script (⟨ok, data⟩ :: rest)) (hl : data.length = r.readLen) :
    transact r s = { s with
      status := s.status && ok
      env := .script rest
      txn := s.txn + 1
      trace := s.trace ++ [.txn r ⟨ok, data⟩] } := by
  have ha : busAnswer r s = ⟨ok, data⟩ := busAnswer_script h hl
  apply State.ext <;> simp [ha, h, envAfter_script]

/-- An ADC read into `D_T` whose answer is the head of a script. -/
theorem adcRead_temperature_script {s : State} {ok : Bool} {a b c : Byte} {rest : List Answer}
    (h : s.env = .script (⟨ok, [a, b, c]⟩ :: rest)) :
    adcRead .temperature s = { s with
      rawT := adcWord [a, b, c]
      status := s.status && ok
      env := .script rest
      txn := s.txn + 1
      trace := s.trace ++ [.txn (.busWriteRead s.cfg.cmdAdcRead 3) ⟨ok, [a, b, c]⟩] } := by
  have ha : busAnswer (adcRequest s) s = ⟨ok, [a, b, c]⟩ := busAnswer_script h rfl
  rw [adcRead, transact_script (r := adcRequest s) h rfl, ha]
  rfl

/-- An ADC read into `D_P` whose answer is the head of a script. -/
theorem adcRead_pressure_script {s : State} {ok : Bool} {a b c : Byte} {rest : List Answer}
    (h : s.env = .script (⟨ok, [a, b, c]⟩ :: rest)) :
    adcRead .pressure s = { s with
      rawP := adcWord [a, b, c]
      status := s.status && ok
      env := .script rest
      txn := s.txn + 1
      trace := s.trace ++ [.txn (.busWriteRead s.cfg.cmdAdcRead 3) ⟨ok, [a, b, c]⟩] } := by
  have ha : busAnswer (adcRequest s) s = ⟨ok, [a, b, c]⟩ := busAnswer_script h rfl
  rw [adcRead, transact_script (r := adcRequest s) h rfl, ha]
  rfl

/-- A PROM read writes `W[i]` and what a transaction writes. -/
theorem promRead_eq (i : Fin 7) (s : State) :
    promRead i s = { s with
      w := s.w.set (bufIndex i) (promReadWord i s)
      status := s.status && (busAnswer (promRequest i s) s).ok
      env := envAfter s.cfg s.txn s.env (promRequest i s)
      txn := s.txn + 1
      trace := s.trace ++ [.txn (promRequest i s) (busAnswer (promRequest i s) s)] } := rfl

/-- The reset command (R166): STATUS and the returned bit are the flag of its one transaction. -/
theorem resetCommand_eq (s : State) :
    resetCommand s = { s with
      status := (busAnswer (.busWrite s.cfg.cmdReset) s).ok
      seq := .idle
      ret := some (busAnswer (.busWrite s.cfg.cmdReset) s).ok
      env := envAfter s.cfg s.txn s.env (.busWrite s.cfg.cmdReset)
      txn := s.txn + 1
      trace := s.trace ++ [.txn (.busWrite s.cfg.cmdReset) (busAnswer (.busWrite s.cfg.cmdReset) s)] } := by
  cases hb : (busAnswer (.busWrite s.cfg.cmdReset) s).ok <;> simp only [busAnswer] at hb <;>
    apply State.ext <;> simp [resetCommand, busAnswer, hb]

/-! ### The PROM reads -/

/-- The PROM reads write `W`, STATUS and what transactions write. -/
theorem promReads_eq (l : List (Fin 7)) (s : State) :
    promReads l s = { s with
      w := (promReads l s).w
      status := (promReads l s).status
      env := (promReads l s).env
      txn := (promReads l s).txn
      trace := (promReads l s).trace } := by
  induction l generalizing s with
  | nil => rfl
  | cons i rest ih =>
    unfold promReads
    split
    · rfl
    · rw [ih]; rfl

@[simp] theorem promReads_w7 (l : List (Fin 7)) (s : State) : (promReads l s).w.w7 = s.w.w7 := by
  induction l generalizing s with
  | nil => rfl
  | cons i rest ih =>
    unfold promReads
    split
    · simp [promRead_eq]
    · rw [ih]; simp [promRead_eq]

/-- A read that succeeds on the head of a script, and the reads after it. -/
theorem promReads_cons_script {i : Fin 7} {l : List (Fin 7)} {s : State} {v : Word16} {rest : List Answer}
    (h : s.env = .script (⟨true, wordBytes v⟩ :: rest)) :
    promReads (i :: l) s = promReads l { s with
      w := s.w.set (bufIndex i) v
      env := .script rest
      txn := s.txn + 1
      trace := s.trace ++ [.txn (.busWriteRead (promrdByte s.cfg.promBase i) 2) ⟨true, wordBytes v⟩] } := by
  have ha : busAnswer (promRequest i s) s = ⟨true, wordBytes v⟩ := busAnswer_script h rfl
  have hs : stopsAfter i s = false := by simp [stopsAfter, ha]
  have hr : promRead i s = { s with
      w := s.w.set (bufIndex i) v
      env := .script rest
      txn := s.txn + 1
      trace := s.trace ++ [.txn (.busWriteRead (promrdByte s.cfg.promBase i) 2) ⟨true, wordBytes v⟩] } := by
    rw [promRead_eq]
    simp only [promReadWord, ha, h, envAfter_script, promWord_wordBytes, if_true, Bool.and_true]
    rfl
  rw [promReads, hs, hr]
  simp

/-! ### The whole loader -/

/-- PROM.LOAD writes the buffer, the CRC's registers and flags, the calibration, STATUS and what transactions write. -/
theorem promLoad_eq (s : State) :
    promLoad s = { s with
      w := (promLoad s).w
      crcn := (promLoad s).crcn
      crc := (promLoad s).crc
      crcOk := (promLoad s).crcOk
      coef := (promLoad s).coef
      osr := (promLoad s).osr
      status := (promLoad s).status
      env := (promLoad s).env
      txn := (promLoad s).txn
      trace := (promLoad s).trace } := by
  unfold promLoad
  simp only
  rw [promReads_eq]
  split
  · split
    · rfl
    · rfl
  · rfl

/-- What W[7] holds does not matter to the computed CRC (R127). -/
theorem crc4_w7 (b : PromBuf) (v : Word16) : crc4 { b with w7 := v } = crc4 b := rfl

/-- PROM.LOAD after reads of which one failed (R142). -/
theorem promLoad_of_failed_read {s : State} (h : (promReads promIndices s.startStatus).status = false) :
    promLoad s = promReads promIndices s.startStatus := by
  simp [promLoad, h]

/-- PROM.LOAD after seven good reads of a block that passes (R146). -/
theorem promLoad_of_match {s : State} (h : (promReads promIndices s.startStatus).status = true)
    (hc : crc4 (promReads promIndices s.startStatus).w = crcNibble (promReads promIndices s.startStatus).w.w0) :
    promLoad s = commitCalibration (checkProm (promReads promIndices s.startStatus)) := by
  simp [promLoad, h, hc]

/-- PROM.LOAD after seven good reads of a block that does not pass (R145). -/
theorem promLoad_of_mismatch {s : State} (h : (promReads promIndices s.startStatus).status = true)
    (hc : crc4 (promReads promIndices s.startStatus).w ≠ crcNibble (promReads promIndices s.startStatus).w.w0) :
    promLoad s = checkProm (promReads promIndices s.startStatus) := by
  simp [promLoad, h, hc]

/-- Everything PROM.LOAD can do to W[7] (R28, R147, R148, log 19): zero when the seven reads succeeded, else not written. -/
theorem promLoad_w7 (s : State) :
    (promLoad s).w.w7 = if (promReads promIndices s.startStatus).status then 0 else s.w.w7 := by
  cases h : (promReads promIndices s.startStatus).status
  · rw [promLoad_of_failed_read h]
    exact promReads_w7 promIndices s.startStatus
  · by_cases hc : crc4 (promReads promIndices s.startStatus).w = crcNibble (promReads promIndices s.startStatus).w.w0
    · rw [promLoad_of_match h hc]
      rfl
    · rw [promLoad_of_mismatch h hc]
      rfl

/-- R28: where W[7] is zero before PROM.LOAD it is zero after it, a failed one among them. -/
theorem promLoad_w7_zero {s : State} (h : s.w.w7 = 0) : (promLoad s).w.w7 = 0 := by
  rw [promLoad_w7, h, ite_self]

/-! ### The conversion cycle -/

/-- The cycle writes `D_T`, `D_P`, STATUS, SEQ and what events write. -/
theorem convCycle_eq (s : State) :
    convCycle s = { s with
      rawT := (convCycle s).rawT
      rawP := (convCycle s).rawP
      status := (convCycle s).status
      seq := if (convCycle s).status then .meaComp else .idle
      env := (convCycle s).env
      txn := (convCycle s).txn
      trace := (convCycle s).trace } := by
  apply State.ext <;> simp [convCycle, readP, waitP, convStartP, readT, waitT, convStartT, adcRead]

/-- The cycle against a script of four answers, whatever they are (R165): every field it writes. -/
theorem convCycle_script {s : State} {ok1 ok2 ok3 ok4 : Bool} {a b c d e f : Byte} {rest : List Answer}
    (h : s.env = .script (⟨ok1, []⟩ :: ⟨ok2, [a, b, c]⟩ :: ⟨ok3, []⟩ :: ⟨ok4, [d, e, f]⟩ :: rest)) :
    convCycle s = { s with
      rawT := adcWord [a, b, c]
      rawP := adcWord [d, e, f]
      status := ok1 && ok2 && ok3 && ok4
      seq := if ok1 && ok2 && ok3 && ok4 then .meaComp else .idle
      env := .script rest
      txn := s.txn + 4
      trace := s.trace ++
        [.txn (.busWrite (convTByte s)) ⟨ok1, []⟩, .delay 18, .txn (.busWriteRead s.cfg.cmdAdcRead 3) ⟨ok2, [a, b, c]⟩,
         .txn (.busWrite (convPByte s)) ⟨ok3, []⟩, .delay 18, .txn (.busWriteRead s.cfg.cmdAdcRead 3) ⟨ok4, [d, e, f]⟩] } := by
  have h1 : convStartT s.startStatus = { s with
      status := ok1
      seq := .meaTWait
      env := .script (⟨ok2, [a, b, c]⟩ :: ⟨ok3, []⟩ :: ⟨ok4, [d, e, f]⟩ :: rest)
      txn := s.txn + 1
      trace := s.trace ++ [.txn (.busWrite (convTByte s)) ⟨ok1, []⟩] } := by
    rw [convStartT, memWrite_eq, transact_script (s := s.startStatus) h rfl]
    simp only [State.startStatus, State.goto, Bool.true_and]
    rfl
  rw [convCycle, h1, waitT, readT, adcRead_temperature_script rfl, convStartP, memWrite_eq, transact_script rfl rfl, waitP,
    readP, adcRead_pressure_script rfl]
  simp only [State.goto, delay, convPByte, settleMs, List.append_assoc, List.cons_append, List.nil_append, Nat.add_assoc]

end Sys2Proof.Machine
end

