-- ==== Sys2Proof/Laws/Exec.lean ====
section
/-!
SUPPORT. What `exec` and `step` can answer, said once: the pure effect of every operation, its precondition, and the
inversion of a step. Whole-machine claims cite these and never unfold the meanings.
-/

namespace Sys2Proof.Machine

/-- The state an operation leads to, whatever hangs and whatever its precondition is. -/
def effect : Instr → State → State
  | .reset, s => resetCommand (resetStart s)
  | .init bus ident, s => initialise bus ident s
  | .measure p t _, s => measure p t s
  | .getevtT, s => hostReturn true (evtFill .temperature s)
  | .getevtP, s => hostReturn true (evtFill .pressure s)
  | .getmetaT, s => hostReturn true (metaRead .temperature s)
  | .getmetaP, s => hostReturn true (metaRead .pressure s)
  | .crc4Chk expd, s => (crcCheck expd s).returning (crcCheck expd s).crcOk
  | .promLoad, s => (promLoad s).returning (promLoad s).loadOk
  | .convSeq, s => (convCycle s).returning (convCycle s).status
  | .comp, s => compensate s
  | .evtFill ch, s => evtFill ch s
  | .cmdReset, s => resetCommand s
  | .cmdPromrd i, s => promRead i s
  | .cmdConvT, s => convStartT s
  | .cmdConvP, s => convStartP s
  | .cmdAdcrd dest, s => adcRead dest s

/-- The precondition of an operation (R227, R228, R210, R214; R225 for the host operations). -/
def admits : Instr → State → Prop
  | .reset, s => s.seq = .idle ∧ s.busOpen = true
  | .init _ _, s => s.seq = .idle
  | .measure _ _ _, s | .getevtT, s | .getevtP, s | .getmetaT, s | .getmetaP, s => s.seq = .idle ∧ s.initialized = true
  | .crc4Chk _, _ | .promLoad, _ | .convSeq, _ | .comp, _ | .evtFill _, _ => True
  | .cmdReset, _ | .cmdPromrd _, _ | .cmdConvT, _ | .cmdConvP, _ | .cmdAdcrd _, _ => True

/-- An admitted operation runs: it ends in its effect, or one of its calls never returns. -/
theorem exec_of_admits {i : Instr} {s : State} (h : admits i s) : exec i s = finish s (effect i s) := by
  cases i <;> simp only [admits] at h <;> first
    | exact hostOperation_accepted h.1 h.2
    | exact hostOperation_accepted h rfl
    | rfl

/-- A next state is the effect of an admitted operation. -/
theorem exec_eq_next {i : Instr} {s t : State} (h : exec i s = .next t) : admits i s ∧ t = effect i s := by
  cases i <;> first
    | (obtain ⟨h1, h2, h3⟩ := hostOperation_eq_next h; exact ⟨⟨h1, h2⟩, h3⟩)
    | (obtain ⟨h1, -, h3⟩ := hostOperation_eq_next h; exact ⟨h1, h3⟩)
    | exact ⟨trivial, finish_eq_next h⟩

/-- With no call that hangs an admitted operation completes. -/
theorem exec_completes {i : Instr} {s : State} (h : admits i s) (hh : s.hangAt = none) : exec i s = .next (effect i s) := by
  rw [exec_of_admits h, finish_of_no_hang hh]

/-- An admitted operation without an event completes whatever hangs. -/
theorem exec_of_no_event {i : Instr} {s : State} (h : admits i s) (ht : (effect i s).trace = s.trace) :
    exec i s = .next (effect i s) := by
  rw [exec_of_admits h, finish_of_trace_eq ht]

/-- The next state of a step: waiting, a host operation in IDLE, or a move of the sequencer. -/
theorem step_eq_next {s t : State} (h : step s = .next t) :
    (s.seq = .idle ∧ s.pending = [] ∧ t = s) ∨
    (∃ c rest i, s.seq = .idle ∧ s.pending = c :: rest ∧ decodeHost c = .ok i ∧ i.layer = .host ∧
      admits i (s.taking rest) ∧ t = effect i (s.taking rest)) ∨
    (s.seq ≠ .idle ∧ t = seqStep s) := by
  have layer_of_decode : ∀ {c : HostCall} {i : Instr}, decodeHost c = .ok i → i.layer = .host := by
    intro c i hd
    unfold decodeHost withoutWants at hd
    split at hd
    · cases hd
    · split at hd <;> (try split at hd) <;> first | (cases hd; rfl) | cases hd
  by_cases hs : s.seq = .idle
  · simp only [step, hs] at h
    cases hp : s.pending with
    | nil => simp only [hp] at h; cases h; exact .inl ⟨hs, rfl, rfl⟩
    | cons c rest =>
      simp only [hp] at h
      cases hd : decodeHost c with
      | error e => simp only [hd] at h; cases h
      | ok i =>
        simp only [hd] at h
        split at h
        · obtain ⟨ha, ht⟩ := exec_eq_next h
          exact .inr (.inl ⟨c, rest, i, hs, rfl, hd, layer_of_decode hd, ha, ht⟩)
        · cases h
  · refine .inr (.inr ⟨hs, ?_⟩)
    unfold step at h
    split at h
    · contradiction
    · exact finish_eq_next h

/-- Outside IDLE, with no call that hangs, a step is the sequencer's. -/
theorem step_outside_idle {s : State} (hs : s.seq ≠ .idle) (hh : s.hangAt = none) : step s = .next (seqStep s) := by
  unfold step
  split
  · contradiction
  · exact finish_of_no_hang hh

/-! ### What every operation keeps -/

/-- Where the sequencer goes after a PROM read, by the flags of that read: everything `promAdvance` can do to SEQ and to the
returned bit. -/
theorem promAdvance_cases (i : Fin 7) (stop : Bool) (s : State) :
    promAdvance i stop s = hostReturn false s ∨ promAdvance i stop s = s.goto .iniCrc ∨
      ∃ j : Fin 7, promAdvance i stop s = s.goto (.iniProm j) := by
  unfold promAdvance
  split
  · exact .inl rfl
  · split
    all_goals first | exact .inr (.inr ⟨_, rfl⟩) | skip
    split
    · exact .inr (.inl rfl)
    · exact .inl rfl

/-- The conversion cycle seen from a MEASURE (R228): the state after it. -/
theorem measure_eq (p t : Bool) (s : State) :
    measure p t s =
      if (convCycle (measureStart p t s)).status then commitAndFill (compensate (convCycle (measureStart p t s)))
      else hostReturn false (convCycle (measureStart p t s)) := rfl

/-- PROM.LOAD writes `C1..C6` and OSR together, from the buffer, or not at all (R146, R148). -/
theorem promLoad_calibration (s : State) :
    ((promLoad s).status = true ∧ (promLoad s).crcOk = true ∧ (promLoad s).coef = coeffsOf (promLoad s).w ∧
      (promLoad s).osr = s.cfg.osrOrd ∧ (promLoad s).w.w7 = 0 ∧ (promLoad s).crcn = crcNibble (promLoad s).w.w0 ∧
      crc4 (promLoad s).w = (promLoad s).crcn) ∨
    ((promLoad s).loadOk = false ∧ (promLoad s).coef = s.coef ∧ (promLoad s).osr = s.osr) := by
  unfold promLoad
  simp only
  have hf := promReads_eq promIndices s.startStatus
  generalize promReads promIndices s.startStatus = r at hf ⊢
  split
  · rename_i hst
    split
    · rename_i hok
      left
      refine ⟨hst, hok, rfl, ?_, rfl, rfl, ?_⟩
      · rw [hf]; rfl
      · have hc : crc4 (extractCrc r).w = crcNibble r.w.w0 := by simpa [checkProm] using hok
        exact hc
    · rename_i hok
      rw [Bool.not_eq_true] at hok
      right
      refine ⟨by simp only [State.loadOk, hok, Bool.and_false], ?_, ?_⟩ <;> (rw [hf]; rfl)
  · rename_i hst
    right
    refine ⟨by simp [State.loadOk, hst], ?_, ?_⟩ <;> (rw [hf]; rfl)

end Sys2Proof.Machine
end

