-- ==== Sys2Proof/Laws/Float.lean ====
section
/-!
SUPPORT. What the parts of the rounding can do (Machine/Float.lean): the exponent of a quotient, and the nearest integer.
-/

namespace Sys2Proof.Machine

/-- `floorLog2` is the exponent of the binade the quotient lies in. -/
theorem floorLog2_spec {num den : ℕ} (hn : 0 < num) (hd : 0 < den) :
    (2 : ℚ) ^ floorLog2 num den ≤ (num : ℚ) / den ∧ (num : ℚ) / den < (2 : ℚ) ^ (floorLog2 num den + 1) := by
  have hd' : (0 : ℚ) < den := by exact_mod_cast hd
  have n1 : (2 : ℚ) ^ num.log2 ≤ num := by exact_mod_cast Nat.log2_self_le hn.ne'
  have n2 : (num : ℚ) < 2 ^ (num.log2 + 1) := by exact_mod_cast Nat.lt_log2_self
  have d1 : (2 : ℚ) ^ den.log2 ≤ den := by exact_mod_cast Nat.log2_self_le hd.ne'
  have d2 : (den : ℚ) < 2 ^ (den.log2 + 1) := by exact_mod_cast Nat.lt_log2_self
  have hsplit : ∀ e : ℤ, ((2 : ℚ) ^ e ≤ (num : ℚ) / den ↔ den * 2 ^ e.toNat ≤ num * 2 ^ (-e).toNat) := by
    intro e
    have he : (2 : ℚ) ^ e = 2 ^ e.toNat / 2 ^ (-e).toNat := by
      rw [← zpow_natCast, ← zpow_natCast, ← zpow_sub₀ (by norm_num : (2 : ℚ) ≠ 0)]
      congr 1
      omega
    rw [he, div_le_div_iff₀ (by positivity) hd', mul_comm ((2 : ℚ) ^ e.toNat)]
    exact_mod_cast Iff.rfl
  have hup : (num : ℚ) / den < (2 : ℚ) ^ ((num.log2 : ℤ) - den.log2 + 1) := by
    rw [div_lt_iff₀ hd', show ((num.log2 : ℤ) - den.log2 + 1) = ((num.log2 + 1 : ℕ) : ℤ) - (den.log2 : ℕ) by push_cast; ring,
      zpow_sub₀ (by norm_num), zpow_natCast, zpow_natCast, div_mul_eq_mul_div, lt_div_iff₀ (by positivity)]
    nlinarith [pow_pos (by norm_num : (0 : ℚ) < 2) den.log2, pow_pos (by norm_num : (0 : ℚ) < 2) (num.log2 + 1)]
  have hlow : (2 : ℚ) ^ ((num.log2 : ℤ) - den.log2 - 1) ≤ (num : ℚ) / den := by
    rw [le_div_iff₀ hd', show ((num.log2 : ℤ) - den.log2 - 1) = ((num.log2 : ℕ) : ℤ) - ((den.log2 + 1 : ℕ) : ℤ) by push_cast; ring,
      zpow_sub₀ (by norm_num), zpow_natCast, zpow_natCast, div_mul_eq_mul_div, div_le_iff₀ (by positivity)]
    nlinarith [pow_pos (by norm_num : (0 : ℚ) < 2) (den.log2 + 1), pow_pos (by norm_num : (0 : ℚ) < 2) num.log2]
  unfold floorLog2
  simp only
  split
  · rename_i h
    exact ⟨(hsplit _).mpr h, hup⟩
  · rename_i h
    refine ⟨hlow, ?_⟩
    rw [sub_add_cancel]
    exact not_le.mp fun hc => h ((hsplit _).mp hc)

/-- `roundHalfEven` is off by at most one half. -/
theorem roundHalfEven_le (num : ℕ) {den : ℕ} (hd : 0 < den) :
    |(roundHalfEven num den : ℚ) - (num : ℚ) / den| ≤ 1 / 2 := by
  have hd' : (0 : ℚ) < den := by exact_mod_cast hd
  have hq : (num : ℚ) = den * (num / den : ℕ) + (num % den : ℕ) := by exact_mod_cast (Nat.div_add_mod num den).symm
  have hx : (num : ℚ) / den = (num / den : ℕ) + (num % den : ℕ) / den := by rw [hq]; field_simp
  have hr : num % den < den := Nat.mod_lt _ hd
  unfold roundHalfEven
  simp only
  split
  · rename_i h
    have h2 : (den : ℚ) ≤ 2 * (num % den : ℕ) := by exact_mod_cast (show den ≤ 2 * (num % den) by omega)
    have h3 : ((num % den : ℕ) : ℚ) ≤ den := by exact_mod_cast hr.le
    rw [hx, abs_le]
    push_cast
    have h4 : (1 : ℚ) / 2 ≤ (num % den : ℕ) / den := by rw [div_le_div_iff₀ (by norm_num) hd']; linarith
    have h5 : ((num % den : ℕ) : ℚ) / den ≤ 1 := by rw [div_le_one hd']; exact h3
    constructor <;> linarith
  · rename_i h
    have h2 : 2 * ((num % den : ℕ) : ℚ) ≤ den := by exact_mod_cast (show 2 * (num % den) ≤ den by omega)
    rw [hx, abs_le]
    have h4 : ((num % den : ℕ) : ℚ) / den ≤ 1 / 2 := by rw [div_le_div_iff₀ hd' (by norm_num)]; linarith
    have h5 : (0 : ℚ) ≤ ((num % den : ℕ) : ℚ) / den := by positivity
    constructor <;> linarith

end Sys2Proof.Machine
end

