-- ==== Sys2Proof/Laws/PerInstr.lean ====
section
/-!
SUPPORT. Claims about every operation as syntax, one lemma per operation: which of the two encoding spaces of
spec/30_encoding.md R90, R91 it has a word in. A host operation has a HOSTOP8 word and no command byte, a bus operation a
command byte and no host word, a unit operation neither.
-/

namespace Sys2Proof.Laws.LayerCoding

/-- The operation has a host word exactly in the host layer, and a command byte exactly in the bus layer (R90, R91). -/
def Statement (i : Instr) : Prop :=
  (encodeHost i).isSome = decide (i.layer = .host) ∧
    ∀ (cfg : Params) (osr : Byte), (encodeCmd8 cfg osr i).isSome = decide (i.layer = .bus)

theorem reset : Statement .reset := ⟨rfl, fun _ _ => rfl⟩

theorem init (bus ident : Nat) : Statement (.init bus ident) := ⟨rfl, fun _ _ => rfl⟩

theorem measure (p t h : Bool) : Statement (.measure p t h) := ⟨rfl, fun _ _ => rfl⟩

theorem getevtT : Statement .getevtT := ⟨rfl, fun _ _ => rfl⟩

theorem getevtP : Statement .getevtP := ⟨rfl, fun _ _ => rfl⟩

theorem getmetaT : Statement .getmetaT := ⟨rfl, fun _ _ => rfl⟩

theorem getmetaP : Statement .getmetaP := ⟨rfl, fun _ _ => rfl⟩

theorem crc4Chk (expd : Nibble) : Statement (.crc4Chk expd) := ⟨rfl, fun _ _ => rfl⟩

theorem promLoad : Statement .promLoad := ⟨rfl, fun _ _ => rfl⟩

theorem convSeq : Statement .convSeq := ⟨rfl, fun _ _ => rfl⟩

theorem comp : Statement .comp := ⟨rfl, fun _ _ => rfl⟩

theorem evtFill (ch : Channel) : Statement (.evtFill ch) := ⟨rfl, fun _ _ => rfl⟩

theorem cmdReset : Statement .cmdReset := ⟨rfl, fun _ _ => rfl⟩

theorem cmdPromrd (i : Fin 7) : Statement (.cmdPromrd i) := ⟨rfl, fun _ _ => rfl⟩

theorem cmdConvT : Statement .cmdConvT := ⟨rfl, fun _ _ => rfl⟩

theorem cmdConvP : Statement .cmdConvP := ⟨rfl, fun _ _ => rfl⟩

theorem cmdAdcrd (dest : Channel) : Statement (.cmdAdcrd dest) := ⟨rfl, fun _ _ => rfl⟩

end Sys2Proof.Laws.LayerCoding
end

