-- ==== Sys2Proof/Laws/Runs.lean ====
section
/-!
SUPPORT. What the claims lean on beyond one unit: a call that hangs, reads against a script, and the events a run of PROM
reads makes whoever answers.
-/

namespace Sys2Proof.Machine

open Sys2Proof.Safety

/-! ### The call that never returns plays no part in an effect -/

theorem promReads_hang (l : List (Fin 7)) (s : State) (h : Option Nat) :
    promReads l { s with hangAt := h } = { promReads l s with hangAt := h } := by
  induction l generalizing s with
  | nil => rfl
  | cons i rest ih =>
    unfold promReads
    have h1 : stopsAfter i { s with hangAt := h } = stopsAfter i s := rfl
    have h2 : promRead i { s with hangAt := h } = { promRead i s with hangAt := h } := rfl
    rw [h1, h2, ih]
    split <;> rfl

theorem promLoad_hang (s : State) (h : Option Nat) :
    promLoad { s with hangAt := h } = { promLoad s with hangAt := h } := by
  have h1 : promReads promIndices (State.startStatus { s with hangAt := h }) =
      { promReads promIndices s.startStatus with hangAt := h } := promReads_hang promIndices s.startStatus h
  cases hs : (promReads promIndices s.startStatus).status
  · rw [promLoad_of_failed_read hs, promLoad_of_failed_read (by rw [h1]; exact hs), h1]
  · by_cases hc : crc4 (promReads promIndices s.startStatus).w = crcNibble (promReads promIndices s.startStatus).w.w0
    · rw [promLoad_of_match hs hc,
        promLoad_of_match (by rw [h1]; exact hs) (by rw [h1]; exact hc), h1]; rfl
    · rw [promLoad_of_mismatch hs hc,
        promLoad_of_mismatch (by rw [h1]; exact hs) (by rw [h1]; exact hc), h1]; rfl

/-- The effect of an operation does not depend on which call hangs. -/
theorem effect_hang (i : Instr) (s : State) (h : Option Nat) :
    effect i { s with hangAt := h } = { effect i s with hangAt := h } := by
  cases i with
  | reset => simp only [effect]; rw [resetCommand_eq, resetCommand_eq]; rfl
  | cmdReset => simp only [effect]; rw [resetCommand_eq, resetCommand_eq]; rfl
  | cmdAdcrd d => cases d <;> rfl
  | promLoad => simp only [effect]; rw [promLoad_hang]; rfl
  | measure p t h' =>
    simp only [effect]
    have h1 : convCycle (measureStart p t { s with hangAt := h }) =
      { convCycle (measureStart p t s) with hangAt := h } := rfl
    rw [measure_eq, measure_eq, h1]
    simp only
    split
    · cases p <;> cases t <;> rfl
    · rfl
  | init bus k =>
    simp only [effect, initialise]
    have h1 : openBus (initStart bus k { s with hangAt := h }) =
      { openBus (initStart bus k s) with hangAt := h } := rfl
    rw [h1, promLoad_hang]
    simp only
    split
    · split
      · split <;> rfl
      · rfl
    · rfl
  | evtFill ch => cases ch <;> rfl
  | _ => rfl

theorem admits_hang {i : Instr} {s : State} {h : Option Nat} (ha : admits i s) : admits i { s with hangAt := h } := by
  cases i <;> exact ha

/-! ### Reads against a script -/

/-- Seven PROM reads of the words of `b`, none of which fails. -/
theorem promReads_script {s : State} {b : PromBuf} {rest : List Answer} (h : s.env = .script (promAnswers b ++ rest)) :
    promReads promIndices s = { s with
      w := { b with w7 := s.w.w7 }
      env := .script rest
      txn := s.txn + 7
      trace := s.trace ++ promEvents s b } := by
  simp only [promAnswers, List.cons_append, List.nil_append] at h
  unfold promIndices
  rw [promReads_cons_script h, promReads_cons_script rfl, promReads_cons_script rfl, promReads_cons_script rfl,
    promReads_cons_script rfl, promReads_cons_script rfl, promReads_cons_script rfl]
  simp only [promReads]
  apply State.ext <;> simp [promEvents]
  rfl

/-- Opening the transport, answered by the head of a script. -/
theorem openBus_script {s : State} {ok : Bool} {rest : List Answer} (h : s.env = .script (⟨ok, []⟩ :: rest)) :
    openBus s = { s with
      status := s.status && ok
      busOpen := ok
      env := .script rest
      txn := s.txn + 1
      trace := s.trace ++ [.txn (openRequest s) ⟨ok, []⟩] } := by
  have ha : busAnswer (openRequest s) s = ⟨ok, []⟩ := busAnswer_script h rfl
  rw [openBus, transact_script h rfl, ha]
  rfl

/-! ### The events of the PROM reads -/

/-- R141, R142: which events the PROM reads make, what they leave in STATUS, and when they are cut short. -/
theorem promReads_events (l : List (Fin 7)) (s : State) : ∃ evs,
    (promReads l s).trace = s.trace ++ evs ∧
    evs.map askOf = (l.map fun i => Ask.transaction (promRequest i s)).take evs.length ∧
    (promReads l s).status = (s.status && evs.all (fun e => !failed e)) ∧
    (s.cfg.initAbortEarly = true → ∀ e ∈ evs.dropLast, failed e = false) ∧
    (evs.length = l.length ∨ (s.cfg.initAbortEarly = true ∧ evs.length < l.length ∧ ∃ e ∈ evs, failed e = true)) := by
  induction l generalizing s with
  | nil => exact ⟨[], by simp [promReads]⟩
  | cons i rest ih =>
    unfold promReads
    split
    · rename_i hs
      have hs' : (busAnswer (promRequest i s) s).ok = false ∧ s.cfg.initAbortEarly = true := by simpa [stopsAfter] using hs
      refine ⟨[.txn (promRequest i s) (busAnswer (promRequest i s) s)], ?_⟩
      cases rest <;> simp [promRead_eq, askOf, failed, hs']
    · rename_i hs
      have hs' : (busAnswer (promRequest i s) s).ok = false → s.cfg.initAbortEarly = false := by simpa [stopsAfter] using hs
      obtain ⟨evs, h1, h2, h3, h4, h5⟩ := ih (promRead i s)
      refine ⟨.txn (promRequest i s) (busAnswer (promRequest i s) s) :: evs, ?_, ?_, ?_, ?_, ?_⟩
      · rw [h1]; simp [promRead_eq]
      · simp [askOf, h2]; rfl
      · rw [h3]; simp [promRead_eq, failed, Bool.and_assoc]
      · intro ha e he
        have hok : (busAnswer (promRequest i s) s).ok = true := by
          cases hb : (busAnswer (promRequest i s) s).ok
          · have := hs' hb; simp [this] at ha
          · rfl
        cases evs with
        | nil => simp at he
        | cons e' evs' =>
          simp only [List.dropLast_cons_cons, List.mem_cons] at he
          rcases he with rfl | he
          · simp [failed, hok]
          · exact h4 ha e he
      · rcases h5 with h5 | ⟨ha, hl, e, he, hf⟩
        · left; simp [h5]
        · right; exact ⟨ha, by simpa using hl, e, by simp [he], hf⟩

theorem promAsks_eq (s : State) : promAsks s = promIndices.map fun i => Ask.transaction (promRequest i s) := by
  simp [promAsks, promIndices, promRequest, memReadRequest, promReadLen, promrdByte_eq]

/-- The loader makes the events of its reads and no others. -/
theorem promLoad_trace (s : State) : (promLoad s).trace = (promReads promIndices s.startStatus).trace := by
  unfold promLoad
  simp only
  split
  · split <;> rfl
  · rfl

end Sys2Proof.Machine
end

