-- ==== Sys2Proof/Tests/Slice0.lean ====
section
/-!
SUPPORT. Tests and witnesses. Expected results come from spec/95_test_vectors.md and the tables of spec/40 to spec/45, never
from the model. Every test uses the default parameters of 00_scope.md R7. A `witness_<Name>` shows a concrete input that meets
the hypotheses of the obligation of that name, at the boundary of each of its clauses where it has several.
-/

namespace Sys2Proof.Tests

open Sys2Proof.Machine Sys2Proof.Safety

-- One theorem at a time: every `decide +kernel` waits for the kernel, and a thread each would exhaust the memory.
set_option Elab.async false

/-! ### States and helpers -/

/-- The coefficients K of 95_test_vectors.md section 2.4. -/
def kCoeffs : Coeffs := ⟨46372, 43981, 29059, 27842, 31553, 28165⟩

/-- The block B of section 2.1, with the zero word. -/
def blockB : PromBuf := ⟨0x8000, 0xB524, 0xABCD, 0x7183, 0x6CC2, 0x7B41, 0x6E05, 0⟩

/-- Block B with a wrong CRC nibble (V-LOAD-2). -/
def blockBad : PromBuf := { blockB with w0 := 0x9000 }

/-- The block after power-on, with the default parameters. -/
def fresh : State := { State.reset with cfg := defaultParams }

/-- The transport has been opened and nothing more. -/
def opened : State := { fresh with busOpen := true }

/-- A ready block that holds block B. -/
def ready : State :=
  { opened with
    initialized := true, w := blockB, crcn := 8, crcOk := true, coef := kCoeffs, osr := 5,
    chT := ⟨.temperature, defaultParams.metaT⟩, chP := ⟨.pressure, defaultParams.metaP⟩ }

/-- Good answers to the open and the seven reads of block `b`. -/
def initScript (b : PromBuf) : List Answer := ⟨true, []⟩ :: promAnswers b ++ []

/-- The four answers of V-SEQ-1. -/
def goodCycle : List Answer :=
  [⟨true, []⟩, ⟨true, [0x7B, 0x41, 0x44]⟩, ⟨true, []⟩, ⟨true, [0x62, 0xA7, 0xA4]⟩]

/-- The four answers of V-SEQ-4: the third transaction fails. -/
def failedCycle : List Answer :=
  [⟨true, []⟩, ⟨true, [0x7B, 0x41, 0x44]⟩, ⟨false, []⟩, ⟨true, [0x62, 0xA7, 0xA4]⟩]

def scripted (s : State) (answers : List Answer) : State := { s with env := .script answers }

/-- The outcome is a next state with this property. -/
def gives (o : Host.Outcome State Fault Refusal) (p : State → Bool) : Bool :=
  match o with
  | .next t => p t
  | .fault _ => false
  | .refused _ => false

/-- The outcome is this refusal. -/
def refuses (o : Host.Outcome State Fault Refusal) (r : Refusal) : Bool :=
  match o with
  | .next _ => false
  | .fault _ => false
  | .refused q => decide (q = r)

/-! ### Well-formedness: one check, one ill-formed term -/

theorem test_init_id_too_wide_is_ill_formed : (Instr.init 0 256).wellFormed 8 = false := by decide

theorem test_init_id_of_full_width_is_well_formed : (Instr.init 0 255).wellFormed 8 = true := by decide

/-- A call with the ill-formed operand is refused by name. -/
theorem test_step_refuses_ill_formed_operand :
    refuses (step { fresh with pending := [⟨0x20, 0, 2 ^ 32⟩] }) .operandTooWide = true := by decide +kernel

/-! ### Decoding: the words of section 2.6 and R99, bit by bit -/

/-- `RESET` is 000 0 0 0 00. -/
theorem test_decode_reset : decodeHost ⟨0b00000000, 3, 4⟩ = .ok .reset := by rfl

/-- `INIT` is 001 0 0 0 00; its operands travel beside it. -/
theorem test_decode_init : decodeHost ⟨0b00100000, 3, 4⟩ = .ok (.init 3 4) := by rfl

/-- `MEASURE` is 010 p t h 00: pressure alone. -/
theorem test_decode_measure_p : decodeHost ⟨0b01010000, 3, 4⟩ = .ok (.measure true false false) := by rfl

/-- Temperature alone. -/
theorem test_decode_measure_t : decodeHost ⟨0b01001000, 3, 4⟩ = .ok (.measure false true false) := by rfl

/-- Humidity alone. -/
theorem test_decode_measure_h : decodeHost ⟨0b01000100, 3, 4⟩ = .ok (.measure false false true) := by rfl

/-- All three flags, 0x5C. -/
theorem test_decode_measure_all : decodeHost ⟨0x5C, 3, 4⟩ = .ok (.measure true true true) := by rfl

/-- `GETEVT.T` is 011 0 0 0 00. -/
theorem test_decode_getevt_t : decodeHost ⟨0b01100000, 3, 4⟩ = .ok .getevtT := by rfl

/-- `GETEVT.P` is 100 0 0 0 00. -/
theorem test_decode_getevt_p : decodeHost ⟨0b10000000, 3, 4⟩ = .ok .getevtP := by rfl

/-- `GETMETA.T` is 101 0 0 0 00. -/
theorem test_decode_getmeta_t : decodeHost ⟨0b10100000, 3, 4⟩ = .ok .getmetaT := by rfl

/-- `GETMETA.P` is 110 0 0 0 00. -/
theorem test_decode_getmeta_p : decodeHost ⟨0b11000000, 3, 4⟩ = .ok .getmetaP := by rfl

/-- The reserved words of section 2.6. -/
theorem test_decode_reserved :
    decodeHost ⟨0xE0, 0, 0⟩ = .error .opSeven ∧ decodeHost ⟨0x01, 0, 0⟩ = .error .lowBitsSet ∧
    decodeHost ⟨0x24, 0, 0⟩ = .error .wantBitsOutsideMeasure ∧
    decodeHost ⟨0x68, 0, 0⟩ = .error .wantBitsOutsideMeasure := ⟨rfl, rfl, rfl, rfl⟩

/-! ### Command bytes: the tables of sections 2.2 and 2.3 -/

theorem test_cmd_reset_byte : encodeCmd8 defaultParams 5 .cmdReset = some 0b00011110 := by rfl

theorem test_cmd_promrd_bytes :
    encodeCmd8 defaultParams 5 (.cmdPromrd 0) = some 0xA0 ∧ encodeCmd8 defaultParams 5 (.cmdPromrd 3) = some 0xA6 ∧
    encodeCmd8 defaultParams 5 (.cmdPromrd 6) = some 0xAC := by decide

/-- With PROM_BASE = 0x10 the last address is 0x1C. -/
theorem test_cmd_promrd_other_base :
    encodeCmd8 { defaultParams with promBase := 0x10 } 5 (.cmdPromrd 6) = some 0x1C := by decide

theorem test_cmd_conv_t_bytes :
    encodeCmd8 defaultParams 0 .cmdConvT = some 0x50 ∧ encodeCmd8 defaultParams 5 .cmdConvT = some 0b01011010 := by decide

theorem test_cmd_conv_p_bytes :
    encodeCmd8 defaultParams 0 .cmdConvP = some 0x40 ∧ encodeCmd8 defaultParams 5 .cmdConvP = some 0b01001010 := by decide

/-- OR is not addition: FLAG_TEMP = 0x5A with OSR = 5 gives 0x5A. -/
theorem test_cmd_conv_is_an_or :
    encodeCmd8 { defaultParams with flagTemp := 0x5A } 5 .cmdConvT = some 0x5A := by decide

theorem test_cmd_adcrd_byte : encodeCmd8 defaultParams 5 (.cmdAdcrd .pressure) = some 0b00000000 := by rfl

/-! ### CRC4.CHK: section 2.1 -/

/-- V-CRC-1 and V-CRC-17: block B with W[7] = 0x1234 passes; W[0] is restored, W[7] is zero. -/
theorem test_crc_passing_block :
    gives (exec (.crc4Chk 8) { fresh with w := { blockB with w7 := 0x1234 } })
      (fun t => t.crcOk && t.ret == some true && t.w == blockB && t.crc.remd == 0x8000) = true := by decide +kernel

/-- V-CRC-10: bit 5 of W[3] flipped: computed CRC 0xE, the check fails. -/
theorem test_crc_detects_a_flip :
    gives (exec (.crc4Chk 8) { fresh with w := { blockB with w3 := 0x71A3 } })
      (fun t => !t.crcOk && t.ret == some false && t.crc.remd == 0xE000 && t.w.w0 == 0x8000) = true := by decide +kernel

/-! ### PROM.LOAD: section 2.2 -/

/-- V-LOAD-1. -/
theorem test_prom_load_commits :
    gives (exec .promLoad (scripted fresh (promAnswers blockB)))
      (fun t => t.ret == some true && t.coef == kCoeffs && t.w == blockB && t.crcn == 8 && t.osr == 5) = true := by
  decide +kernel

/-- V-LOAD-5 with INIT_ABORT_EARLY: the fourth read fails, four events, false. -/
theorem test_prom_load_aborts_early :
    gives (exec .promLoad (scripted { fresh with cfg := { defaultParams with initAbortEarly := true } }
        [⟨true, [0x80, 0x00]⟩, ⟨true, [0xB5, 0x24]⟩, ⟨true, [0xAB, 0xCD]⟩, ⟨false, [0x71, 0x83]⟩]))
      (fun t => t.ret == some false && t.trace.length == 4 && t.w.w2 == 0xABCD && !t.status) = true := by decide +kernel

/-! ### CONV.SEQ: section 2.3 -/

/-- V-SEQ-8: big-endian assembly; bit 23 is no sign. -/
theorem test_conv_seq_big_endian :
    gives (exec .convSeq (scripted { fresh with osr := 5 }
        [⟨true, []⟩, ⟨true, [0x01, 0x02, 0x03]⟩, ⟨true, []⟩, ⟨true, [0x80, 0x00, 0x00]⟩]))
      (fun t => t.status && t.rawT == 66051 && t.rawP == 8388608 && t.trace.length == 6) = true := by decide +kernel

/-- V-SEQ-2: the first write fails: six events all the same, STATUS = 0. -/
theorem test_conv_seq_no_early_exit :
    gives (exec .convSeq (scripted { fresh with osr := 5 }
        [⟨false, []⟩, ⟨true, [0x7B, 0x41, 0x44]⟩, ⟨true, []⟩, ⟨true, [0x62, 0xA7, 0xA4]⟩]))
      (fun t => !t.status && t.rawT == 8077636 && t.rawP == 6465444 && t.trace.length == 6) = true := by decide +kernel

/-! ### The bus operations: section 2.3 -/

/-- V-RST-1: one event, `W[1E] ok`. -/
theorem test_cmd_reset :
    gives (exec .cmdReset (scripted opened [⟨true, []⟩]))
      (fun t => t.ret == some true && t.trace == [.txn (.busWrite 0x1E) ⟨true, []⟩]) = true := by decide +kernel

/-- `WR[A4],2 -> AB CD`: the first byte received is the high one. -/
theorem test_cmd_promrd :
    gives (exec (.cmdPromrd 2) (scripted { fresh with status := true } [⟨true, [0xAB, 0xCD]⟩]))
      (fun t => t.w.w2 == 0xABCD && t.status) = true := by decide +kernel

/-- `W[5A] FAIL`: STATUS falls, the sequencer goes on to the wait. -/
theorem test_cmd_conv_t :
    gives (exec .cmdConvT (scripted { fresh with status := true, osr := 5 } [⟨false, []⟩]))
      (fun t => !t.status && t.seq == .meaTWait && t.trace == [.txn (.busWrite 0x5A) ⟨false, []⟩]) = true := by
  decide +kernel

/-- `W[4A] ok`. -/
theorem test_cmd_conv_p :
    gives (exec .cmdConvP (scripted { fresh with status := true, osr := 5 } [⟨true, []⟩]))
      (fun t => t.status && t.seq == .meaPWait && t.trace == [.txn (.busWrite 0x4A) ⟨true, []⟩]) = true := by
  decide +kernel

/-- `WR[00],3 -> 62 A7 A4` into D_P. -/
theorem test_cmd_adcrd :
    gives (exec (.cmdAdcrd .pressure) (scripted { fresh with status := true, rawT := 7 } [⟨true, [0x62, 0xA7, 0xA4]⟩]))
      (fun t => t.rawP == 6465444 && t.rawT == 7 && t.trace.length == 1) = true := by decide +kernel

/-! ### COMP: section 2.4 -/

/-- V-COMP-3: an arithmetic shift of a negative product; the low branch. -/
theorem test_comp_arithmetic_shift :
    gives (exec .comp { fresh with coef := kCoeffs, rawT := 8077567, rawP := 6465444 })
      (fun t => t.pipe.temp == 1999 && t.pipe.off == 5764677193 && t.pipe.sens == 3039035163 &&
        t.compRet.pCenti == 110002 && t.compRet.tRead == 0x419FEB85) = true := by decide +kernel

/-- V-COMP-7: the very-low-temperature addition; negative results. -/
theorem test_comp_very_low :
    gives (exec .comp { fresh with coef := kCoeffs, rawT := 7035134, rawP := 6465444 })
      (fun t => t.pipe.off2 == 46729833 && t.pipe.sens2 == 22215823 && t.compRet.pCenti == 100912 &&
        t.compRet.tRead == 0xC1966666) = true := by decide +kernel

/-! ### Event adapter: section 2.5 -/

/-- V-EVT-1 as EVT.FILL: kind, identity and value come from the channel and the cache. -/
theorem test_evt_fill :
    gives (exec (.evtFill .pressure) { ready with cache := ⟨2000, 110002, 0x41A00000, 0x448980A4⟩ })
      (fun t => (t.evtOut.map fun r => (r.kind, r.sensorId, r.value)) == some (.pressure, 2, 0x448980A4)) = true := by
  decide +kernel

/-- V-EVT-1. -/
theorem test_getevt_t :
    gives (exec .getevtT { ready with cache := ⟨2000, 110002, 0x41A00000, 0x448980A4⟩ })
      (fun t => (t.evtOut.map fun r => (r.kind, r.sensorId, r.value)) == some (.temperature, 1, 0x41A00000) &&
        t.ret == some true) = true := by decide +kernel

/-- V-EVT-2. -/
theorem test_getevt_p :
    gives (exec .getevtP { ready with cache := ⟨2000, 110002, 0x41A00000, 0x448980A4⟩ })
      (fun t => (t.evtOut.map fun r => r.value) == some 0x448980A4 && t.ret == some true) = true := by decide +kernel

/-- V-EVT-6. -/
theorem test_getevt_refused : refuses (exec .getevtT fresh) .notInitialized = true := by decide +kernel

/-- V-EVT-5. -/
theorem test_getmeta_t :
    gives (exec .getmetaT ready) (fun t => (t.metaOut.map fun m => m.kind) == some .temperature) = true := by decide +kernel

/-- V-EVT-5. -/
theorem test_getmeta_p :
    gives (exec .getmetaP ready) (fun t => (t.metaOut.map fun m => m.kind) == some .pressure) = true := by decide +kernel

/-! ### Host operations: section 3, each one step -/

/-- P6, second line. -/
theorem test_reset : gives (exec .reset (scripted opened [⟨true, []⟩]))
    (fun t => t.ret == some true && t.trace == [.txn (.busWrite 0x1E) ⟨true, []⟩] && t.busOpen) = true := by decide +kernel

/-- U5. -/
theorem test_reset_refused : refuses (exec .reset fresh) .transportNotOpen = true := by decide +kernel

/-- P1, first line. -/
theorem test_init : gives (exec (.init 1 7) (scripted fresh (initScript blockB)))
    (fun t => t.ret == some true && t.initialized && t.busOpen && t.instanceId == 7 && t.coef == kCoeffs &&
      t.trace.length == 8) = true := by decide +kernel

/-- P2: the nibble of word 0 is wrong. -/
theorem test_init_corrupt : gives (exec (.init 1 7) (scripted fresh (initScript { blockB with w0 := 0x7000 })))
    (fun t => t.ret == some false && !t.initialized && t.busOpen && t.w.w0 == 0x7000 && t.crcn == 7 && !t.crcOk) = true := by
  decide +kernel

/-- P1, second line. -/
theorem test_measure : gives (exec (.measure true true false) (scripted ready goodCycle))
    (fun t => t.ret == some true && t.cache == ⟨2000, 110002, 0x41A00000, 0x448980A4⟩ && t.recT.value == 0x41A00000 &&
      t.recP.value == 0x448980A4) = true := by decide +kernel

/-- P3: a failed third transaction keeps the old reading. -/
theorem test_measure_failed :
    gives (exec (.measure true true false) (scripted { ready with cache := ⟨1, 2, 3, 4⟩ } failedCycle))
      (fun t => t.ret == some false && t.cache == ⟨1, 2, 3, 4⟩ && t.trace.length == 6 && t.seq == .idle) = true := by
  decide +kernel

/-- A program's first call right after power-on: INIT fetched by word 0x20 runs. -/
theorem test_first_call_runs :
    gives (step (scripted (fresh.withFetchWord 8 0x20) (initScript blockB)))
      (fun t => t.initialized && t.pending == []) = true := by decide +kernel

/-! ### Witnesses: encoding and the step -/

theorem witness_HostEncodeDecodeRoundTrip : encodeHost (.measure true false true) = some ⟨0x54, 0, 0⟩ := by decide

theorem witness_DecodedHostWordsAreTheEncodedOnes : decodeHost ⟨0x54, 0, 0⟩ = .ok (.measure true false true) := by rfl

/-- A reserved word of each kind, and the words next to them that are not. -/
theorem witness_ReservedHostWordsAreRefused :
    ({ fresh with pending := [⟨0xE0, 0, 0⟩] } : State).seq = .idle ∧
    ({ fresh with pending := [⟨0xE0, 0, 0⟩] } : State).pending = ⟨0xE0, 0, 0⟩ :: [] ∧
    reservedWord 0xE0 ∧ reservedWord 0xFF ∧ reservedWord 0x01 ∧ reservedWord 0x03 ∧ reservedWord 0x24 ∧ reservedWord 0x7C ∧
    ¬ reservedWord 0x00 ∧ ¬ reservedWord 0x5C ∧ ¬ reservedWord 0xC0 := by
  refine ⟨rfl, rfl, ?_⟩
  simp [reservedWord]

theorem witness_StepRunsTheDecodedOperation :
    fresh.seq = .idle ∧ decodeHost ⟨0x20, 1, 2 ^ 32 - 1⟩ = .ok (.init 1 (2 ^ 32 - 1)) ∧
    (Instr.init 1 (2 ^ 32 - 1)).wellFormed fresh.cfg.instanceIdW = true := ⟨rfl, rfl, by decide⟩

theorem witness_StepWaitsForACall :
    fresh.seq = .idle ∧ fresh.pending = [] ∧ decodeHost ⟨0x20, 1, 2 ^ 32⟩ = .ok (.init 1 (2 ^ 32)) ∧ 0 < 2 ^ 32 ∧
    2 ^ fresh.cfg.instanceIdW ≤ 2 ^ 32 := ⟨rfl, rfl, rfl, by decide, by decide⟩

/-- Rows of R32 that go on, and rows that end the operation: INI_PROM at both ends of its range, with a good and a failed read, with
and without INIT_ABORT_EARLY, the CRC comparison both ways, and STATUS both ways after the last ADC read. -/
theorem witness_StepOutsideIdleMovesTheSequencer :
    ({ fresh with seq := .meaTWait } : State).seq ≠ .idle ∧ ({ fresh with seq := .meaTWait } : State).hangAt = none ∧
    rowOf { fresh with seq := .meaTWait } = ⟨.meaTRead, none⟩ ∧
    rowOf { scripted opened [⟨true, []⟩] with seq := .rstCmd } = ⟨.idle, some true⟩ ∧
    rowOf { scripted fresh [⟨true, []⟩] with seq := .iniOpen } = ⟨.iniProm 0, none⟩ ∧
    rowOf { scripted fresh [⟨false, []⟩] with seq := .iniOpen } = ⟨.idle, some false⟩ ∧
    rowOf { scripted fresh [⟨false, []⟩] with seq := .iniProm 5, status := true } = ⟨.iniProm 6, none⟩ ∧
    rowOf { scripted fresh [⟨true, []⟩] with seq := .iniProm 6, status := true } = ⟨.iniCrc, none⟩ ∧
    rowOf { scripted fresh [⟨true, []⟩] with seq := .iniProm 6, status := false } = ⟨.idle, some false⟩ ∧
    rowOf { scripted { fresh with cfg := { defaultParams with initAbortEarly := true } } [⟨false, []⟩] with seq := .iniProm 0 } =
      ⟨.idle, some false⟩ ∧
    rowOf { fresh with seq := .iniCrc, w := blockB } = ⟨.iniCommit, none⟩ ∧
    rowOf { fresh with seq := .iniCrc, w := blockBad } = ⟨.idle, some false⟩ ∧
    rowOf { scripted fresh [⟨true, []⟩] with seq := .meaPRead, status := true } = ⟨.meaComp, none⟩ ∧
    rowOf { scripted fresh [⟨true, []⟩] with seq := .meaPRead, status := false } = ⟨.idle, some false⟩ := by
  refine ⟨by decide, rfl, ?_⟩
  decide +kernel

theorem witness_HostOperationsAreRefusedOutsideIdle :
    (Instr.measure true true false).layer = .host ∧ ({ fresh with seq := .meaTWait } : State).seq ≠ .idle := by decide

/-- The first event hangs, the event after the last would, and an event of an earlier operation would have. -/
theorem witness_ACallThatNeverReturnsStopsItsOperation :
    ready.hangAt = none ∧ exec .convSeq ready = .next (effect .convSeq ready) ∧
    (ready.trace.length ≤ 0 ∧ 0 < (effect .convSeq ready).trace.length) ∧ (effect .convSeq ready).trace.length ≤ 6 ∧
    0 < ({ ready with trace := [.delay 18] } : State).trace.length := by
  refine ⟨rfl, exec_completes (i := .convSeq) trivial rfl, ?_, ?_, ?_⟩ <;> decide +kernel

/-! ### Witnesses: units -/

theorem witness_of_no_hang : fresh.hangAt = none := rfl

theorem witness_ConversionStartsSendOneCommand : ({ fresh with osr := 255 } : State).hangAt = none := rfl

theorem witness_AdcReadLatchesThreeBytes : (scripted fresh [⟨false, [0xFF, 0xFF, 0xFF]⟩]).hangAt = none := rfl

/-- A read that succeeds, at the last index. -/
theorem witness_PromReadLatchesItsWord :
    (scripted fresh [⟨true, [0xFF, 0x00]⟩]).hangAt = none ∧
    (busAnswer (.busWriteRead (BitVec.ofNat 8 (defaultParams.promBase.toNat + 2 * (6 : Fin 7).val)) 2)
      (scripted fresh [⟨true, [0xFF, 0x00]⟩])).ok = true := ⟨rfl, rfl⟩

theorem witness_ResetSendsOneCommandAndChangesNothingElse :
    opened.hangAt = none ∧ opened.seq = .idle ∧ opened.busOpen = true := ⟨rfl, rfl, rfl⟩

theorem witness_ResetNeedsAnOpenTransport : fresh.seq = .idle ∧ fresh.busOpen = false := ⟨rfl, rfl⟩

theorem passes_blockB : passes blockB := by unfold passes; decide +kernel

theorem not_passes_blockBad : ¬ passes blockBad := by unfold passes; decide +kernel

theorem witness_EverySingleBitFlipIsDetected : passes blockB := passes_blockB

theorem witness_PromLoadCommitsAPassingBlock :
    (scripted fresh (promAnswers blockB ++ [])).hangAt = none ∧
    (scripted fresh (promAnswers blockB ++ [])).env = .script (promAnswers blockB ++ []) ∧ passes blockB :=
  ⟨rfl, rfl, passes_blockB⟩

theorem witness_PromLoadRejectsACorruptBlock :
    (scripted fresh (promAnswers blockBad ++ [])).hangAt = none ∧
    (scripted fresh (promAnswers blockBad ++ [])).env = .script (promAnswers blockBad ++ []) ∧ ¬ passes blockBad :=
  ⟨rfl, rfl, not_passes_blockBad⟩

/-- The last read fails; and with INIT_ABORT_EARLY the first. -/
theorem witness_PromLoadFailsOnAnyFailedRead :
    (let s := scripted fresh (promAnswers { blockB with w6 := 0 } |>.dropLast |>.concat ⟨false, [0, 0]⟩)
     s.hangAt = none ∧ ((newEvents s (effect .promLoad s)).any failed) = true ∧ (newEvents s (effect .promLoad s)).length = 7) ∧
    (let s := scripted { fresh with cfg := { defaultParams with initAbortEarly := true } } [⟨false, [0, 0]⟩]
     s.hangAt = none ∧ s.cfg.initAbortEarly = true ∧ ((newEvents s (effect .promLoad s)).any failed) = true) := by
  refine ⟨⟨rfl, ?_, ?_⟩, rfl, rfl, ?_⟩ <;> decide +kernel

theorem witness_ConvSeqRunsBothPhases :
    (scripted fresh (⟨false, []⟩ :: ⟨true, [1, 2, 3]⟩ :: ⟨true, []⟩ :: ⟨true, [4, 5, 6]⟩ :: [])).hangAt = none ∧
    (scripted fresh (⟨false, []⟩ :: ⟨true, [1, 2, 3]⟩ :: ⟨true, []⟩ :: ⟨true, [4, 5, 6]⟩ :: [])).env =
      .script (⟨false, []⟩ :: ⟨true, [1, 2, 3]⟩ :: ⟨true, []⟩ :: ⟨true, [4, 5, 6]⟩ :: []) := ⟨rfl, rfl⟩

theorem witness_ConvSeqHasSixEvents : fresh.hangAt = none := rfl

/-- V-COMP-1, V-COMP-3, V-COMP-6, V-COMP-7: TEMP on both sides of both thresholds. -/
theorem witness_CorrectionFollowsTemp :
    (intsOf (pipeline 8077568 6465444 kCoeffs)).temp = 2000 ∧ (intsOf (pipeline 8077567 6465444 kCoeffs)).temp = 1999 ∧
    (intsOf (pipeline 7035135 6465444 kCoeffs)).temp = -1500 ∧ (intsOf (pipeline 7035134 6465444 kCoeffs)).temp = -1501 := by
  decide +kernel

/-- V-COMP-7 again: the very low branch, in which the bound on the last square applies. -/
theorem witness_PipelineStaysInsideItsBounds :
    (intPipeline 7035134 6465444 46372 43981 29059 27842 31553 28165).temp < -1500 := by decide +kernel

theorem witness_TemperatureIgnoresThePressureOperands :
    let s := { fresh with coef := kCoeffs, rawT := 7, rawP := 8 }
    let s' := { fresh with coef := { kCoeffs with c1 := 0, c4 := 65535 }, rawT := 7, rawP := 16777215 }
    s.rawT = s'.rawT ∧ s.coef.c5 = s'.coef.c5 ∧ s.coef.c6 = s'.coef.c6 ∧ exec .comp s = .next (effect .comp s) ∧
      exec .comp s' = .next (effect .comp s') :=
  ⟨rfl, rfl, rfl, exec_completes (i := .comp) trivial rfl, exec_completes (i := .comp) trivial rfl⟩

/-- The largest, the smallest and the zero centi-value, and the binade of the first two. -/
theorem witness_Binary32ReadingIsCorrectlyRounded :
    ((2 : Int) ^ 27 - 1).natAbs < 2 ^ 27 ∧ (-(2 : Int) ^ 27 + 1).natAbs < 2 ^ 27 ∧ (0 : Int).natAbs < 2 ^ 27 ∧
    ((2 : ℚ) ^ (20 : ℤ) ≤ (2 ^ 27 - 1) / 100 ∧ ((2 ^ 27 - 1) / 100 : ℚ) < 2 ^ (21 : ℤ)) ∧
    ((2 : ℚ) ^ (-7 : ℤ) ≤ 1 / 100 ∧ (1 / 100 : ℚ) < 2 ^ (-6 : ℤ)) := by
  refine ⟨by decide, by decide, by decide, ?_, ?_⟩ <;> norm_num

/-! ### Witnesses: event adapter -/

theorem witness_GetEventReturnsTheCachedReading : ready.seq = .idle ∧ ready.initialized = true := ⟨rfl, rfl⟩

theorem witness_GetMetadataReturnsTheChannel : ready.seq = .idle ∧ ready.initialized = true := ⟨rfl, rfl⟩

theorem inv_ready : Inv ready :=
  ⟨fun _ => ⟨rfl, ⟨rfl, rfl, rfl, passes_blockB⟩, rfl, rfl, rfl, rfl⟩, nofun, nofun, nofun, nofun, nofun⟩

theorem witness_GetMetadataOfAReadyBlock :
    Inv ready ∧ exec .getmetaT ready = .next (effect .getmetaT ready) ∧
      exec .getmetaP ready = .next (effect .getmetaP ready) :=
  ⟨inv_ready, exec_completes (i := .getmetaT) ⟨rfl, rfl⟩ rfl, exec_completes (i := .getmetaP) ⟨rfl, rfl⟩ rfl⟩

theorem witness_NothingIsMeasuredBeforeInit : fresh.seq = .idle ∧ fresh.initialized = false := ⟨rfl, rfl⟩

/-! ### Witnesses: INIT and MEASURE -/

theorem witness_InitLoadsAPassingBlock :
    quiet (scripted fresh (initScript blockB)) ∧
    (scripted fresh (initScript blockB)).env = .script (⟨true, []⟩ :: promAnswers blockB ++ []) ∧ passes blockB :=
  ⟨⟨rfl, rfl⟩, rfl, passes_blockB⟩

theorem witness_InitRejectsACorruptBlock :
    quiet (scripted fresh (initScript blockBad)) ∧
    (scripted fresh (initScript blockBad)).env = .script (⟨true, []⟩ :: promAnswers blockBad ++ []) ∧ ¬ passes blockBad :=
  ⟨⟨rfl, rfl⟩, rfl, not_passes_blockBad⟩

theorem witness_InitStopsWhenTheTransportDoesNotOpen :
    quiet (scripted ready [⟨false, []⟩]) ∧
    (busAnswer (.busOpen 1 defaultParams.devAddr) (scripted ready [⟨false, []⟩])).ok = false := ⟨⟨rfl, rfl⟩, rfl⟩

/-- An INIT that makes the block ready; one with a failed read, which does not. -/
theorem witness_InitReturnsWhetherTheBlockIsReady :
    (quiet (scripted fresh (initScript blockB)) ∧
      (effect (.init 1 7) (scripted fresh (initScript blockB))).initialized = true) ∧
    (let s := scripted ready (⟨true, []⟩ :: ⟨false, [0, 0]⟩ :: promAnswers blockB)
     quiet s ∧ (newEvents s (effect (.init 1 7) s)).any failed = true ∧ (effect (.init 1 7) s).initialized = false) := by
  refine ⟨⟨⟨rfl, rfl⟩, ?_⟩, ⟨rfl, rfl⟩, ?_, ?_⟩ <;> decide +kernel

/-- The open fails; the open succeeds and no read fails; and with INIT_ABORT_EARLY a read fails. -/
theorem witness_InitEventsComeInOrder :
    (quiet (scripted fresh [⟨false, []⟩]) ∧
      ((newEvents (scripted fresh [⟨false, []⟩]) (effect (.init 1 7) (scripted fresh [⟨false, []⟩]))).map failed) = [true]) ∧
    (let s := scripted fresh (initScript blockB)
     quiet s ∧ s.cfg.initAbortEarly = false ∧ (newEvents s (effect (.init 1 7) s)).all (fun e => !failed e) = true) ∧
    (let s := scripted { fresh with cfg := { defaultParams with initAbortEarly := true } } [⟨true, []⟩, ⟨false, [0, 0]⟩]
     quiet s ∧ s.cfg.initAbortEarly = true ∧ ((newEvents s (effect (.init 1 7) s)).map failed) = [false, true]) := by
  refine ⟨⟨⟨rfl, rfl⟩, ?_⟩, ⟨⟨rfl, rfl⟩, rfl, ?_⟩, ⟨rfl, rfl⟩, rfl, ?_⟩ <;> decide +kernel

theorem witness_MeasureCommitsTheReading :
    quiet (scripted ready goodCycle) ∧ (scripted ready goodCycle).initialized = true ∧
    (scripted ready goodCycle).env =
      .script (⟨true, []⟩ :: ⟨true, [0x7B, 0x41, 0x44]⟩ :: ⟨true, []⟩ :: ⟨true, [0x62, 0xA7, 0xA4]⟩ :: []) :=
  ⟨⟨rfl, rfl⟩, rfl, rfl⟩

/-- A cycle that fails. -/
theorem witness_FailedMeasureKeepsTheReading :
    quiet (scripted ready failedCycle) ∧ (scripted ready failedCycle).initialized = true ∧
    (effect (.measure true true false) (scripted ready failedCycle)).ret = some false := by
  refine ⟨⟨rfl, rfl⟩, rfl, ?_⟩
  decide +kernel

theorem witness_MeasureAlwaysMakesSixEvents : quiet ready ∧ ready.initialized = true := ⟨⟨rfl, rfl⟩, rfl⟩

theorem witness_HumidityFlagHasNoEffect : exec (.measure true true true) ready = .next (effect (.measure true true true) ready) :=
  exec_completes (i := .measure true true true) ⟨rfl, rfl⟩ rfl

theorem witness_StaleReadingIsReturnedAfterAFailedMeasure :
    quiet (scripted ready failedCycle) ∧
    exec (.measure true true false) (scripted ready failedCycle) =
      .next (effect (.measure true true false) (scripted ready failedCycle)) ∧
    (effect (.measure true true false) (scripted ready failedCycle)).ret = some false := by
  refine ⟨⟨rfl, rfl⟩, exec_completes (i := .measure true true false) ⟨rfl, rfl⟩ rfl, ?_⟩
  decide +kernel

/-! ### Witnesses: the whole machine -/

/-- Each of the three operations, and a hang. -/
theorem witness_SequencerReachesTheBigStep :
    opened.seq = .idle ∧ (Instr.reset = .reset ∧ opened.busOpen = true) ∧
    (∃ bus ident, Instr.init 1 7 = .init bus ident) ∧
    ((∃ p t h, Instr.measure true true false = .measure p t h) ∧ ready.initialized = true) ∧
    ({ ready with hangAt := some 3 } : State).seq = .idle :=
  ⟨rfl, ⟨rfl, rfl⟩, ⟨_, _, rfl⟩, ⟨⟨_, _, _, rfl⟩, rfl⟩, rfl⟩

/-- A call is waiting in a ready block. -/
def calling (s : State) (w : Byte) : State := { s with pending := [⟨w, 0, 0⟩] }

/-- A step of a ready block that reads its metadata. -/
theorem step_ready : step (calling ready 0xA0) = .next (effect .getmetaT ready) := rfl

theorem witness_EveryStepKeepsTheCalibrationTrusted :
    Inv (calling ready 0xA0) ∧ step (calling ready 0xA0) = .next (effect .getmetaT ready) := ⟨inv_ready, step_ready⟩

theorem witness_ConstantsAreNeverWritten : step (calling ready 0xA0) = .next (effect .getmetaT ready) := step_ready

/-- A step that leaves the calibration, and one that writes it. -/
theorem witness_OnlyASuccessfulInitWritesTheCalibration :
    step (calling ready 0xA0) = .next (effect .getmetaT ready) ∧
    (let s := { scripted ready (initScript { blockB with w0 := 0, w1 := 0, w2 := 0, w3 := 0, w4 := 0, w5 := 0, w6 := 0 }) with
        pending := [⟨0x20, 1, 7⟩] }
     gives (step s) (fun t => t.coef != s.coef && t.initialized && t.ret == some true) = true ∧
       nextCall s (.init 1 7) ∧ s.seq = .idle) :=
  ⟨step_ready, by decide +kernel, ⟨_, _, rfl, rfl⟩, rfl⟩

/-- A step that leaves the cache, and one that writes it. -/
theorem witness_OnlyASuccessfulMeasureWritesTheReading :
    step (calling ready 0xA0) = .next (effect .getmetaT ready) ∧
    (let s := calling (scripted { ready with cache := ⟨1, 2, 3, 4⟩ } goodCycle) 0x58
     gives (step s) (fun t => t.cache != s.cache && t.ret == some true) = true ∧ nextCall s (.measure true true false) ∧
       s.seq = .idle) :=
  ⟨step_ready, by decide +kernel, ⟨_, _, rfl, rfl⟩, rfl⟩

/-- A step with six events. -/
theorem witness_StepsAskOnlyForAllowedEvents :
    gives (step (calling (scripted ready goodCycle) 0x58)) (fun t => t.trace.length == 6) = true := by decide +kernel

/-- A ready block whose step asks for both conversions. -/
theorem witness_ConversionsAreAskedForAtTheConfiguredResolution :
    Inv (calling (scripted ready goodCycle) 0x58) ∧
    gives (step (calling (scripted ready goodCycle) 0x58)) (fun t => t.trace.length == 6) = true := by
  refine ⟨inv_ready, ?_⟩
  decide +kernel

theorem witness_HostOperationsReturnToIdle :
    Instr.getmetaT.layer = .host ∧ exec .getmetaT ready = .next (effect .getmetaT ready) :=
  ⟨rfl, exec_completes (i := .getmetaT) ⟨rfl, rfl⟩ rfl⟩

/-! ### Witnesses: the ideal sensor -/

/-- The sensor of programs P1 and P6. -/
def sensorB : Sensor :=
  ⟨#v[0x8000, 0xB524, 0xABCD, 0x7183, 0x6CC2, 0x7B41, 0x6E05], 0, 0x7B4144, 0x62A7A4, []⟩

theorem witness_IdealSensorLoadsItsProm :
    quiet { fresh with env := .ideal sensorB } ∧ ({ fresh with env := .ideal sensorB } : State).env = .ideal sensorB ∧
    sensorB.fails = [] ∧ passes (sensorProm sensorB) := ⟨⟨rfl, rfl⟩, rfl, rfl, passes_blockB⟩

theorem witness_IdealSensorIsMeasured :
    quiet { ready with env := .ideal sensorB } ∧ ({ ready with env := .ideal sensorB } : State).initialized = true ∧
    sensorB.fails = [] ∧ ({ ready with env := .ideal sensorB } : State).osr = defaultParams.osrOrd ∧
    distinctCommands defaultParams := by
  refine ⟨⟨rfl, rfl⟩, rfl, rfl, rfl, ?_⟩
  unfold distinctCommands
  decide

end Sys2Proof.Tests
end

/-!
A run of the sequencer in small steps is the big step of the host operation (spec/00_scope.md R11, 10_state.md R32).
The small steps are followed first without the calls that hang (`SeqReaches`); that a hang stops both granularities alike is
proved once for any such run (`run_of_seqReaches`).
-/

namespace Sys2Proof.Machine

/-! ### A later state of one run -/

/-- `t` comes after `s` in one run: events are only appended, and the same call is the one that hangs. -/
structure State.Extends (t s : State) : Prop where
  hangAt : t.hangAt = s.hangAt
  trace : s.trace <+: t.trace

theorem State.Extends.refl (s : State) : s.Extends s := ⟨rfl, List.prefix_refl _⟩

theorem State.Extends.trans {s t u : State} (h₁ : u.Extends t) (h₂ : t.Extends s) : u.Extends s :=
  ⟨h₁.hangAt.trans h₂.hangAt, h₂.trace.trans h₁.trace⟩

/-- One small step only appends events, in every state of SEQ. -/
theorem seqStep_extends (s : State) : (seqStep s).Extends s := by
  unfold seqStep
  cases s.seq with
  | rstCmd => rw [resetCommand_eq]; exact ⟨rfl, List.prefix_append _ _⟩
  | iniOpen => simp only [stepIniOpen]; split <;> exact ⟨rfl, List.prefix_append _ _⟩
  | iniProm i =>
    rcases promAdvance_cases i (stopsAfter i s) (promRead i s) with h | h | ⟨j, h⟩ <;> simp only [stepIniProm, h] <;>
      exact ⟨rfl, List.prefix_append _ _⟩
  | iniCrc => simp only [stepIniCrc]; split <;> exact ⟨rfl, List.prefix_refl _⟩
  | meaPRead => simp only [stepMeaPRead]; split <;> exact ⟨rfl, List.prefix_append _ _⟩
  | meaCommit =>
    simp only [commitAndFill, fillWantedT, fillWantedP]
    split <;> split <;> exact ⟨rfl, List.prefix_refl _⟩
  | idle | iniCommit | meaComp => exact ⟨rfl, List.prefix_refl _⟩
  | meaTStart | meaTWait | meaTRead | meaPStart | meaPWait => exact ⟨rfl, List.prefix_append _ _⟩

/-- An operation that takes `s` through `u` to `t` either passes `u`, and then ends as one that starts in `u` does, or a call
before `u` never returns, and then the whole operation hangs. -/
theorem finish_through {s u t : State} (hu : u.Extends s) (ht : t.Extends u) :
    (finish s u = .next u ∧ finish u t = finish s t) ∨
      (finish s u = .fault .collaboratorHang ∧ finish s t = .fault .collaboratorHang) := by
  have hsu := hu.trace.length_le
  have hut := ht.trace.length_le
  cases hk : s.hangAt with
  | none => exact .inl ⟨finish_of_no_hang hk, by rw [finish_of_no_hang hk, finish_of_no_hang (hu.hangAt.trans hk)]⟩
  | some k =>
    have hk' := hu.hangAt.trans hk
    by_cases hc : s.trace.length ≤ k ∧ k < u.trace.length
    · have hc' : s.trace.length ≤ k ∧ k < t.trace.length := by omega
      exact .inr ⟨by simp [finish, hk, hc], by simp [finish, hk, hc']⟩
    · have hiff : (u.trace.length ≤ k ∧ k < t.trace.length) ↔ (s.trace.length ≤ k ∧ k < t.trace.length) := by omega
      exact .inl ⟨by simp only [finish, hk, if_neg hc], by simp only [finish, hk, hk', hiff]⟩

/-! ### Runs of the sequencer -/

/-- From `s` the sequencer reaches `t` in at most `k` small steps, none of them in IDLE, were no call to hang. -/
inductive SeqReaches : Nat → State → State → Prop
  | done {k : Nat} (s : State) : SeqReaches k s s
  | move {k : Nat} {s t : State} (hs : s.seq ≠ .idle) (h : SeqReaches k (seqStep s) t) : SeqReaches (k + 1) s t

theorem SeqReaches.mono {j k : Nat} {s t : State} (h : SeqReaches j s t) (hjk : j ≤ k) : SeqReaches k s t := by
  induction h generalizing k with
  | done s => exact .done s
  | move hs _ ih =>
    obtain ⟨k, rfl⟩ := Nat.exists_eq_add_of_le' (Nat.one_le_of_lt hjk)
    exact .move hs (ih (Nat.le_of_succ_le_succ hjk))

theorem SeqReaches.trans {j k : Nat} {s t u : State} (h₁ : SeqReaches j s t) (h₂ : SeqReaches k t u) :
    SeqReaches (j + k) s u := by
  induction h₁ with
  | done s => exact h₂.mono (Nat.le_add_left _ _)
  | move hs _ ih => exact Nat.add_right_comm .. ▸ .move hs (ih h₂)

theorem extends_of_seqReaches {k : Nat} {s t : State} (h : SeqReaches k s t) : t.Extends s := by
  induction h with
  | done s => exact .refl s
  | move _ _ ih => exact ih.trans (seqStep_extends _)

/-- Outside IDLE a step is the sequencer's, unless its call hangs. -/
theorem step_eq_finish_seqStep {s : State} (hs : s.seq ≠ .idle) : step s = finish s (seqStep s) := by
  unfold step
  split
  · contradiction
  · rfl

theorem run_succ_of_next {M : Host.Core} {n : Nat} {s u : M.State} (h : M.step s = .next u) :
    M.run (n + 1) s = M.run n u := by
  rw [Host.Core.run, h]

theorem run_succ_of_fault {M : Host.Core} {n : Nat} {s : M.State} {r : M.Fault} (h : M.step s = .fault r) :
    M.run (n + 1) s = .fault r := by
  rw [Host.Core.run, h]

/-- Small steps that reach `t` answer what one operation from `s` to `t` answers, a hang included (R11, R253). -/
theorem run_of_seqReaches {k : Nat} {s t : State} (h : SeqReaches k s t) :
    ∃ n ≤ k, Sys2Proof.core.run n s = finish s t := by
  induction h with
  | done s => exact ⟨0, Nat.zero_le _, (finish_of_trace_eq rfl).symm⟩
  | @move k s t hs h ih =>
    obtain ⟨n, hn, hrun⟩ := ih
    refine ⟨n + 1, Nat.succ_le_succ hn, ?_⟩
    rcases finish_through (seqStep_extends s) (extends_of_seqReaches h) with ⟨hnext, hrest⟩ | ⟨hfault, hwhole⟩
    · have hstep : step s = .next (seqStep s) := (step_eq_finish_seqStep hs).trans hnext
      exact (run_succ_of_next hstep).trans (hrun.trans hrest)
    · have hstep : step s = .fault .collaboratorHang := (step_eq_finish_seqStep hs).trans hfault
      exact (run_succ_of_fault hstep).trans hwhole.symm

/-- Accepting an operation makes no event: whether the operation hangs can be judged from the accepted state. -/
theorem finish_accept (i : Instr) (s t : State) : finish (accept i s) t = finish s t := by
  cases i <;> rfl

/-! ### RESET and MEASURE in small steps -/

/-- R32: RESET is the one state RST_CMD. -/
theorem seqReaches_reset (s : State) : SeqReaches 1 (resetStart s) (resetCommand (resetStart s)) :=
  .move nofun (.done _)

/-- R157 to R164: the six states of the cycle, and the failure exit at its end. -/
theorem seqReaches_convCycle (p t : Bool) (s : State) :
    SeqReaches 6 (measureStart p t s)
      (if (convCycle (measureStart p t s)).status then convCycle (measureStart p t s)
       else hostReturn false (convCycle (measureStart p t s))) :=
  .move nofun <| .move nofun <| .move nofun <| .move nofun <| .move nofun <| .move nofun <| .done _

theorem fillWantedP_goto (s : State) (q : SeqState) : fillWantedP (s.goto q) = (fillWantedP s).goto q := by
  unfold fillWantedP
  rw [apply_ite (State.goto · q)]
  rfl

theorem fillWantedT_goto (s : State) (q : SeqState) : fillWantedT (s.goto q) = (fillWantedT s).goto q := by
  unfold fillWantedT
  rw [apply_ite (State.goto · q)]
  rfl

/-- The commit leaves for IDLE from whatever state of SEQ. -/
theorem commitAndFill_goto (s : State) (q : SeqState) : commitAndFill (s.goto q) = commitAndFill s := by
  have hcommit : commitReading (s.goto q) = (commitReading s).goto q := rfl
  simp only [commitAndFill, hcommit, fillWantedP_goto, fillWantedT_goto]
  rfl

/-- R193, R229: MEA_COMP and MEA_COMMIT. -/
theorem seqReaches_commitAndFill {s : State} (hs : s.seq = .meaComp) :
    SeqReaches 2 s (commitAndFill (compensate s)) := by
  have hcomp : seqStep s = (compensate s).goto .meaCommit := by rw [seqStep, hs]; rfl
  refine .move (by simp [hs]) ?_
  rw [hcomp, ← commitAndFill_goto _ .meaCommit]
  exact .move nofun (.done _)

theorem seqReaches_measure (p t : Bool) (s : State) : SeqReaches 8 (measureStart p t s) (measure p t s) := by
  have hcycle := seqReaches_convCycle p t s
  rw [measure_eq]
  split at hcycle
  · rename_i hok
    have hseq : (convCycle (measureStart p t s)).seq = .meaComp := by rw [convCycle_eq, hok]; rfl
    rw [if_pos hok]
    exact hcycle.trans (seqReaches_commitAndFill hseq)
  · rename_i hfail
    rw [if_neg hfail]
    exact hcycle.mono (by decide)

/-! ### INIT in small steps -/

theorem seqStep_iniProm (i : Fin 7) (s : State) :
    seqStep (s.goto (.iniProm i)) = promAdvance i (stopsAfter i s) ((promRead i s).goto (.iniProm i)) := rfl

/-- R32: after a read that does not stop the loader, every word but the last is followed by the next. -/
theorem promAdvance_castSucc (i : Fin 6) (s : State) :
    promAdvance i.castSucc false s = s.goto (.iniProm i.succ) := by
  fin_cases i <;> rfl

theorem drop_promIndices_castSucc (i : Fin 6) :
    promIndices.drop i.castSucc = i.castSucc :: promIndices.drop i.succ := by
  decide +revert

/-- A read after which the loader stops has failed. -/
theorem promRead_status_of_stopsAfter {i : Fin 7} {s : State} (h : stopsAfter i s = true) :
    (promRead i s).status = false := by
  have hfail : (busAnswer (promRequest i s) s).ok = false := by simp_all [stopsAfter]
  simp [promRead_eq, hfail]

/-- R32, R142: the states INI_PROM(i) to INI_PROM(6) make the loader's reads from word `i` on; they end in INI_CRC if STATUS
is still 1, and in the failure exit if not. -/
theorem seqReaches_promReads (i : Fin 7) (s : State) :
    SeqReaches (7 - i) (s.goto (.iniProm i))
      (if (promReads (promIndices.drop i) s).status then (promReads (promIndices.drop i) s).goto .iniCrc
       else hostReturn false (promReads (promIndices.drop i) s)) := by
  induction i using Fin.reverseInduction generalizing s with
  | last =>
    refine .move nofun ?_
    have hreads : promReads (promIndices.drop (Fin.last 6)) s = promRead (Fin.last 6) s := ite_self _
    rw [seqStep_iniProm, hreads]
    cases hstop : stopsAfter (Fin.last 6) s with
    | true =>
      rw [promRead_status_of_stopsAfter hstop]
      exact .done _
    | false => exact .done _
  | cast i ih =>
    have hk : 7 - (i.castSucc : Nat) = 7 - (i.succ : Nat) + 1 := by simp; omega
    rw [hk, drop_promIndices_castSucc, promReads]
    refine .move nofun ?_
    rw [seqStep_iniProm]
    cases hstop : stopsAfter i.castSucc s with
    | true =>
      rw [if_pos rfl, promRead_status_of_stopsAfter hstop]
      exact .done _
    | false =>
      rw [promAdvance_castSucc]
      exact ih (promRead i.castSucc s)

/-- R143 to R146, R32: INI_CRC and INI_COMMIT. -/
theorem seqReaches_checkProm (s : State) :
    SeqReaches 2 (s.goto .iniCrc)
      (if (checkProm s).crcOk then hostReturn true (becomeReady (commitCalibration (checkProm s)))
       else hostReturn false (checkProm s)) := by
  have hcrc : seqStep (s.goto .iniCrc) =
      if (checkProm s).crcOk then (checkProm s).goto .iniCommit else hostReturn false (checkProm s) := rfl
  refine .move nofun ?_
  rw [hcrc]
  split
  · exact .move nofun (.done _)
  · exact .done _

/-- The end of INIT when the transport has opened and the loader's reads have given `r` (R226, R145, R146, R148). -/
def initAfterReads (r : State) : State :=
  if r.status then
    if (checkProm r).crcOk then hostReturn true (becomeReady (commitCalibration (checkProm r)))
    else hostReturn false (checkProm r)
  else hostReturn false r

theorem seqReaches_initAfterReads (s : State) :
    SeqReaches 9 (s.goto (.iniProm 0)) (initAfterReads (promReads promIndices s)) := by
  have hreads : SeqReaches 7 (s.goto (.iniProm 0))
      (if (promReads promIndices s).status then (promReads promIndices s).goto .iniCrc
       else hostReturn false (promReads promIndices s)) := seqReaches_promReads 0 s
  unfold initAfterReads
  split at hreads
  · rename_i hok
    rw [if_pos hok]
    exact hreads.trans (seqReaches_checkProm _)
  · rename_i hfail
    rw [if_neg hfail]
    exact hreads.mono (by decide)

theorem initialise_of_open {bus ident : Nat} {s : State} (h : (openBus (initStart bus ident s)).busOpen = true) :
    initialise bus ident s =
      initAfterReads (promReads promIndices (openBus (initStart bus ident s)).startStatus) := by
  simp only [initialise, h, if_true, promLoad, initAfterReads, raiseFailure_eq]
  generalize promReads promIndices (openBus (initStart bus ident s)).startStatus = r
  cases hs : r.status with
  | false => simp [hs]
  | true => cases hc : (checkProm r).crcOk <;> simp [hs, hc, -checkProm_crcOk]

theorem seqReaches_init (bus ident : Nat) (s : State) :
    SeqReaches 10 (initStart bus ident s) (initialise bus ident s) := by
  have hopen : seqStep (initStart bus ident s) =
      if (openBus (initStart bus ident s)).busOpen then
        (openBus (initStart bus ident s)).startStatus.goto (.iniProm 0)
      else hostReturn false (openBus (initStart bus ident s)) := rfl
  refine .move nofun ?_
  rw [hopen]
  split
  · rename_i hopened
    rw [initialise_of_open hopened]
    exact seqReaches_initAfterReads _
  · rename_i hclosed
    simp only [initialise, if_neg hclosed]
    exact .done _

/-! ### The obligation -/

/-- Settles O50: the small steps reach the operation's effect (`seqReaches_reset`, `seqReaches_init`, `seqReaches_measure`), and
both granularities hang alike (`run_of_seqReaches`). -/
theorem sequencerReachesTheBigStep : Obligations.SequencerReachesTheBigStep := by
  unfold Obligations.SequencerReachesTheBigStep
  intro i s hidle hop
  have hreach : admits i s ∧ SeqReaches 10 (accept i s) (effect i s) := by
    rcases hop with ⟨rfl, hbus⟩ | ⟨bus, ident, rfl⟩ | ⟨⟨p, t, h, rfl⟩, hinit⟩
    · exact ⟨⟨hidle, hbus⟩, (seqReaches_reset s).mono (by decide)⟩
    · exact ⟨hidle, seqReaches_init bus ident s⟩
    · exact ⟨⟨hidle, hinit⟩, (seqReaches_measure p t s).mono (by decide)⟩
  obtain ⟨hadmits, hreaches⟩ := hreach
  rw [exec_of_admits hadmits, ← finish_accept]
  exact run_of_seqReaches hreaches

end Sys2Proof.Machine

/-!
What a step keeps and what it may write (spec/10_state.md R21, R26, R32, R35, R43). First, one equation for each group of the
sequencer's states and for each host operation says which registers it writes (`seqStep_before_iniCommit`, `measure_frame` and
so on); that the sequencer follows the table of R32 is `seqStep_follows_rowOf`. The invariants of the whole machine are read off
these by the cases of a step (`step_eq_next`).
-/

namespace Sys2Proof.Machine

open Sys2Proof.Safety

/-! ### What one move of the sequencer writes -/

theorem promAdvance_frame (i : Fin 7) (stop : Bool) (s : State) :
    promAdvance i stop s = { s with seq := (promAdvance i stop s).seq, ret := (promAdvance i stop s).ret } := by
  rcases promAdvance_cases i stop s with h | h | ⟨j, h⟩ <;> rw [h] <;> rfl

/-- A state of INIT before the commit writes the PROM buffer, the CRC's registers, BUS_OPEN and STATUS, and neither the
calibration nor INITIALIZED (R148). -/
theorem seqStep_before_iniCommit {s : State} (hinit : inInit s.seq = true) (hcommit : s.seq ≠ .iniCommit) :
    seqStep s = { s with
      seq := (seqStep s).seq
      w := (seqStep s).w
      crcn := (seqStep s).crcn
      crc := (seqStep s).crc
      busOpen := (seqStep s).busOpen
      status := (seqStep s).status
      crcOk := (seqStep s).crcOk
      ret := (seqStep s).ret
      trace := (seqStep s).trace
      env := (seqStep s).env
      txn := (seqStep s).txn } := by
  unfold seqStep
  cases hq : s.seq with
  | iniOpen => simp only [stepIniOpen]; split <;> rfl
  | iniProm i => simp only [stepIniProm]; rw [promAdvance_frame]; rfl
  | iniCrc => simp only [stepIniCrc]; split <;> rfl
  | iniCommit => exact absurd hq hcommit
  | _ => simp [hq, inInit] at hinit

theorem seqStep_iniCommit {s : State} (hq : s.seq = .iniCommit) :
    seqStep s = hostReturn true (becomeReady (commitCalibration s)) := by
  rw [seqStep, hq]; rfl

/-- RST_CMD and the states of MEASURE before the commit write `D_T`, `D_P`, STATUS and the engine's result. -/
theorem seqStep_before_meaCommit {s : State} (hinit : inInit s.seq = false) (hcommit : s.seq ≠ .meaCommit) :
    seqStep s = { s with
      seq := (seqStep s).seq
      rawT := (seqStep s).rawT
      rawP := (seqStep s).rawP
      pipe := (seqStep s).pipe
      status := (seqStep s).status
      compRet := (seqStep s).compRet
      ret := (seqStep s).ret
      trace := (seqStep s).trace
      env := (seqStep s).env
      txn := (seqStep s).txn } := by
  unfold seqStep
  cases hq : s.seq with
  | rstCmd => simp only [resetCommand_eq]
  | meaPRead => simp only [stepMeaPRead]; split <;> rfl
  | meaCommit => exact absurd hq hcommit
  | iniOpen | iniProm _ | iniCrc | iniCommit => simp [hq, inInit] at hinit
  | idle => rfl
  | meaTStart | meaTWait | meaTRead | meaPStart | meaPWait | meaComp => rfl

/-- MEA_COMMIT and the end of MEASURE write the cache and the records asked for (R229, R231). -/
theorem commitAndFill_eq (s : State) :
    commitAndFill s = { s with
      cache := s.compRet
      recT := (commitAndFill s).recT
      recP := (commitAndFill s).recP
      stamps := (commitAndFill s).stamps
      seq := .idle
      ret := some true } := by
  simp only [commitAndFill, fillWantedT, fillWantedP]
  split <;> split <;> rfl

theorem seqStep_meaCommit {s : State} (hq : s.seq = .meaCommit) : seqStep s = commitAndFill s := by
  rw [seqStep, hq]

/-! ### What a host operation writes -/

theorem initialise_frame (bus ident : Nat) (s : State) :
    initialise bus ident s = { s with
      initialized := (initialise bus ident s).initialized
      instanceId := ident
      busHandle := bus
      busOpen := (initialise bus ident s).busOpen
      status := (initialise bus ident s).status
      w := (initialise bus ident s).w
      crcn := (initialise bus ident s).crcn
      crc := (initialise bus ident s).crc
      crcOk := (initialise bus ident s).crcOk
      coef := (initialise bus ident s).coef
      osr := (initialise bus ident s).osr
      chT := (initialise bus ident s).chT
      chP := (initialise bus ident s).chP
      seq := .idle
      ret := (initialise bus ident s).ret
      trace := (initialise bus ident s).trace
      env := (initialise bus ident s).env
      txn := (initialise bus ident s).txn } := by
  simp only [initialise, raiseFailure_eq]
  rw [promLoad_eq]
  split
  · split
    · split <;> rfl
    · rfl
  · rfl

theorem measure_frame (p t : Bool) (s : State) :
    measure p t s = { s with
      rawT := (measure p t s).rawT
      rawP := (measure p t s).rawP
      pipe := (measure p t s).pipe
      cache := (measure p t s).cache
      status := (measure p t s).status
      compRet := (measure p t s).compRet
      want := ⟨p, t⟩
      recT := (measure p t s).recT
      recP := (measure p t s).recP
      seq := .idle
      ret := (measure p t s).ret
      trace := (measure p t s).trace
      env := (measure p t s).env
      txn := (measure p t s).txn
      stamps := (measure p t s).stamps } := by
  rw [measure_eq, convCycle_eq]
  split
  · rw [commitAndFill_eq]; rfl
  · rfl


/-! ### The sequencer and its table (R32) -/

/-- The move from `s` to `t` is the one `row` describes: SEQ goes where it says, and the bit is returned where the operation
ends. -/
def Follows (row : Row) (s t : State) : Prop := t.seq = row.next ∧ t.ret = row.returned.or s.ret

theorem follows_goto {q : SeqState} {s t : State} (h : t.ret = s.ret) : Follows (.goOn q) s (t.goto q) := ⟨rfl, h⟩

theorem follows_hostReturn (b : Bool) (s t : State) : Follows (.endsWith b) s (hostReturn b t) := ⟨rfl, rfl⟩

theorem wordRequest_eq (i : Fin 7) (s : State) : wordRequest i s = promRequest i s := by
  rw [wordRequest, ← promrdByte_eq]; rfl

theorem promRow_castSucc (i : Fin 6) {ok status abortEarly : Bool} (h : ¬ (ok = false ∧ abortEarly = true)) :
    promRow i.castSucc ok status abortEarly = .goOn (.iniProm i.succ) := by
  have hi : (i.castSucc : Nat) < 6 := i.isLt
  rw [promRow, if_neg h, dif_pos hi]; rfl

theorem stepIniProm_follows (i : Fin 7) (s : State) :
    Follows (promRow i (okOf (wordRequest i s) s) (s.status && okOf (wordRequest i s) s) s.cfg.initAbortEarly) s
      (stepIniProm i s) := by
  rw [wordRequest_eq]
  have hstop : stopsAfter i s = true ↔ okOf (promRequest i s) s = false ∧ s.cfg.initAbortEarly = true := by
    simp [stopsAfter, okOf]
  cases hs : stopsAfter i s with
  | true =>
    rw [promRow, if_pos (hstop.mp hs), stepIniProm, hs]
    exact follows_hostReturn false s _
  | false =>
    have hgo : ¬ (okOf (promRequest i s) s = false ∧ s.cfg.initAbortEarly = true) := by rw [← hstop, hs]; decide
    rw [stepIniProm, hs]
    cases i using Fin.lastCases with
    | cast i =>
      rw [promAdvance_castSucc, promRow_castSucc i hgo]
      exact follows_goto rfl
    | last =>
      have hlast : promAdvance (Fin.last 6) false (promRead (Fin.last 6) s) =
          if (s.status && okOf (promRequest (Fin.last 6) s) s) = true then (promRead (Fin.last 6) s).goto .iniCrc
          else hostReturn false (promRead (Fin.last 6) s) := rfl
      rw [hlast, promRow, if_neg hgo, dif_neg (by decide)]
      split
      · exact follows_goto rfl
      · exact follows_hostReturn false s _

theorem stepIniOpen_follows (s : State) :
    Follows (if okOf (.busOpen s.busHandle s.cfg.devAddr) s = true then .goOn (.iniProm 0) else .endsWith false) s
      (stepIniOpen s) := by
  have hopen : (openBus s).busOpen = okOf (.busOpen s.busHandle s.cfg.devAddr) s := rfl
  rw [stepIniOpen, ← hopen]
  split
  · exact follows_goto rfl
  · exact follows_hostReturn false s _

theorem stepIniCrc_follows (s : State) :
    Follows (if crc4 s.w = crcNibble s.w.w0 then .goOn .iniCommit else .endsWith false) s (stepIniCrc s) := by
  simp only [stepIniCrc, checkProm_crcOk, beq_iff_eq]
  split
  · exact follows_goto rfl
  · exact follows_hostReturn false s _

theorem stepMeaPRead_follows (s : State) :
    Follows (if (s.status && okOf (.busWriteRead s.cfg.cmdAdcRead 3) s) = true then .goOn .meaComp else .endsWith false) s
      (stepMeaPRead s) := by
  have hstatus : (readP s).status = (s.status && okOf (.busWriteRead s.cfg.cmdAdcRead 3) s) := rfl
  simp only [stepMeaPRead, hstatus]
  split
  · rename_i hok
    have hseq : (readP s).seq =
        if (s.status && okOf (.busWriteRead s.cfg.cmdAdcRead 3) s) = true then .meaComp else .idle := rfl
    exact ⟨by rw [hseq, if_pos hok]; rfl, rfl⟩
  · exact follows_hostReturn false s _

/-- Every move of the sequencer is the one of its row of R32. -/
theorem seqStep_follows_rowOf (s : State) : Follows (rowOf s) s (seqStep s) := by
  unfold rowOf seqStep
  cases hq : s.seq with
  | idle => exact ⟨hq, rfl⟩
  | rstCmd => simp only [resetCommand_eq]; exact ⟨rfl, rfl⟩
  | iniOpen => exact stepIniOpen_follows s
  | iniProm i => exact stepIniProm_follows i s
  | iniCrc => exact stepIniCrc_follows s
  | iniCommit => exact follows_hostReturn true s _
  | meaPRead => exact stepMeaPRead_follows s
  | meaCommit => exact follows_hostReturn true s _
  | meaTStart | meaTWait | meaTRead | meaPStart | meaPWait | meaComp => exact follows_goto rfl

/-- What no move of the sequencer writes: the constants (R43), the humidity record (R230) and the host's waiting calls (R33). -/
theorem seqStep_keeps_constants_and_calls (s : State) :
    (seqStep s).cfg = s.cfg ∧ (seqStep s).recH = s.recH ∧ (seqStep s).pending = s.pending := by
  by_cases hcommit : s.seq = .iniCommit
  · rw [seqStep_iniCommit hcommit]; exact ⟨rfl, rfl, rfl⟩
  by_cases hmea : s.seq = .meaCommit
  · rw [seqStep_meaCommit hmea, commitAndFill_eq]; exact ⟨rfl, rfl, rfl⟩
  cases hinit : inInit s.seq with
  | true => rw [seqStep_before_iniCommit hinit hcommit]; exact ⟨rfl, rfl, rfl⟩
  | false => rw [seqStep_before_meaCommit hinit hmea]; exact ⟨rfl, rfl, rfl⟩

/-- Settles O8: the table is followed in every state of SEQ (`seqStep_follows_rowOf`), and no move takes a call. -/
theorem stepOutsideIdleMovesTheSequencer : Obligations.StepOutsideIdleMovesTheSequencer := by
  unfold Obligations.StepOutsideIdleMovesTheSequencer
  intro s hs hhang
  obtain ⟨hseq, hret⟩ := seqStep_follows_rowOf s
  obtain ⟨-, -, hpending⟩ := seqStep_keeps_constants_and_calls s
  refine ⟨seqStep s, step_outside_idle hs hhang, rfl, hseq, ?_, ?_, hpending⟩
  · intro b hb
    rw [hret, hb]; rfl
  · intro hnone
    rw [hret, hnone]; rfl

/-! ### The constants -/

/-- No host operation writes a constant or the humidity record (R43, R230). -/
theorem effect_keeps_constants {i : Instr} (hi : i.layer = .host) (s : State) :
    (effect i s).cfg = s.cfg ∧ (effect i s).recH = s.recH := by
  cases i with
  | reset => simp only [effect, resetCommand_eq]; exact ⟨rfl, rfl⟩
  | init bus ident => rw [effect, initialise_frame]; exact ⟨rfl, rfl⟩
  | measure p t h => rw [effect, measure_frame]; exact ⟨rfl, rfl⟩
  | getevtT | getevtP | getmetaT | getmetaP => exact ⟨rfl, rfl⟩
  | _ => cases hi

/-- Settles O53: neither a host operation nor a move of the sequencer writes them. -/
theorem constantsAreNeverWritten : Obligations.ConstantsAreNeverWritten := by
  unfold Obligations.ConstantsAreNeverWritten
  intro s t hstep
  rcases step_eq_next hstep with ⟨-, -, rfl⟩ | ⟨c, rest, i, -, -, -, hhost, -, rfl⟩ | ⟨-, rfl⟩
  · exact ⟨rfl, rfl⟩
  · exact effect_keeps_constants hhost (s.taking rest)
  · obtain ⟨hcfg, hrecH, -⟩ := seqStep_keeps_constants_and_calls s
    exact ⟨hcfg, hrecH⟩

/-! ### INIT and the calibration -/

theorem loadOk_iff (s : State) : s.loadOk = true ↔ s.status = true ∧ s.crcOk = true := Bool.and_eq_true_iff

theorem promLoad_cfg (s : State) : (promLoad s).cfg = s.cfg := by rw [promLoad_eq]

theorem promLoad_busOpen (s : State) : (promLoad s).busOpen = s.busOpen := by rw [promLoad_eq]

theorem promLoad_initialized (s : State) : (promLoad s).initialized = s.initialized := by rw [promLoad_eq]

/-- R146, R226: a load that succeeded over an open transport makes a ready block. -/
theorem readyBlock_becomeReady_promLoad {s : State} (hopen : s.busOpen = true) (hload : (promLoad s).loadOk = true) :
    readyBlock (becomeReady (promLoad s)) := by
  rcases promLoad_calibration s with ⟨-, hcrc, hcoef, hosr, hw7, hcrcn, hpass⟩ | ⟨hfail, -, -⟩
  · have hbus : (promLoad s).busOpen = true := (promLoad_busOpen s).trans hopen
    have hosr' : (promLoad s).osr = (promLoad s).cfg.osrOrd := by rw [hosr, promLoad_cfg]
    exact ⟨hbus, ⟨hw7, hcrcn, hcrc, hpass.trans hcrcn⟩, hcoef, hosr', rfl, rfl⟩
  · rw [hload] at hfail
    cases hfail

/-- R145, R148: a load that failed writes neither the coefficients nor OSR. -/
theorem promLoad_of_not_loadOk {s : State} (h : ¬ (promLoad s).loadOk = true) :
    (promLoad s).coef = s.coef ∧ (promLoad s).osr = s.osr := by
  rcases promLoad_calibration s with ⟨hstatus, hcrc, -⟩ | ⟨-, hkept⟩
  · exact absurd ((loadOk_iff _).mpr ⟨hstatus, hcrc⟩) h
  · exact hkept

/-- INIT over an open transport succeeds exactly when the load does (R226). -/
theorem initialise_of_busOpen {bus ident : Nat} {s : State} (hopen : (openBus (initStart bus ident s)).busOpen = true) :
    initialise bus ident s =
      if (promLoad (openBus (initStart bus ident s))).loadOk = true then
        hostReturn true (becomeReady (promLoad (openBus (initStart bus ident s))))
      else hostReturn false (promLoad (openBus (initStart bus ident s))) := by
  simp only [initialise, hopen, raiseFailure_eq, loadOk_iff, ite_and, if_true]

/-- Everything INIT can do to the calibration (R226, R145, R146, R148): it returns true over a ready block, or it leaves the
coefficients and OSR as they were and the block not ready. -/
theorem initialise_calibration (bus ident : Nat) (s : State) :
    ((initialise bus ident s).initialized = true ∧ (initialise bus ident s).ret = some true ∧
      readyBlock (initialise bus ident s)) ∨
    ((initialise bus ident s).initialized = false ∧ (initialise bus ident s).coef = s.coef ∧
      (initialise bus ident s).osr = s.osr) := by
  by_cases hopen : (openBus (initStart bus ident s)).busOpen = true
  · rw [initialise_of_busOpen hopen]
    split
    · rename_i hload
      exact .inl ⟨rfl, rfl, readyBlock_becomeReady_promLoad hopen hload⟩
    · rename_i hload
      exact .inr ⟨promLoad_initialized _, promLoad_of_not_loadOk hload⟩
  · simp only [initialise, if_neg hopen]
    exact .inr ⟨rfl, rfl, rfl⟩

/-- Neither RESET, MEASURE nor a register read touches what a ready block stands for. -/
theorem effect_keeps_ready {i : Instr} (hi : i.layer = .host) (hinit : ∀ bus ident, i ≠ .init bus ident) (s : State) :
    (effect i s).coef = s.coef ∧ (effect i s).osr = s.osr ∧ (effect i s).initialized = s.initialized ∧
      (readyBlock s → readyBlock (effect i s)) := by
  cases i with
  | reset => simp only [effect, resetCommand_eq]; exact ⟨rfl, rfl, rfl, id⟩
  | init bus ident => exact absurd rfl (hinit bus ident)
  | measure p t h => rw [effect, measure_frame]; exact ⟨rfl, rfl, rfl, id⟩
  | getevtT | getevtP | getmetaT | getmetaP => exact ⟨rfl, rfl, rfl, id⟩
  | _ => cases hi

/-- A move of RESET or of MEASURE does not touch what a ready block stands for. -/
theorem seqStep_outside_init {s : State} (h : inInit s.seq = false) :
    (seqStep s).coef = s.coef ∧ (seqStep s).osr = s.osr ∧ (seqStep s).initialized = s.initialized ∧
      (readyBlock s → readyBlock (seqStep s)) := by
  by_cases hmea : s.seq = .meaCommit
  · rw [seqStep_meaCommit hmea, commitAndFill_eq]; exact ⟨rfl, rfl, rfl, id⟩
  · rw [seqStep_before_meaCommit h hmea]; exact ⟨rfl, rfl, rfl, id⟩

/-- Only the commit state of INIT writes the calibration. -/
theorem seqStep_keeps_calibration {s : State} (hcommit : s.seq ≠ .iniCommit) :
    (seqStep s).coef = s.coef ∧ (seqStep s).osr = s.osr ∧ (seqStep s).initialized = s.initialized := by
  cases hinit : inInit s.seq with
  | true => rw [seqStep_before_iniCommit hinit hcommit]; exact ⟨rfl, rfl, rfl⟩
  | false =>
    obtain ⟨hcoef, hosr, hsame, -⟩ := seqStep_outside_init hinit
    exact ⟨hcoef, hosr, hsame⟩

/-- Settles O54: outside INIT nothing of the calibration is written; INIT writes it only where it returns true, as a big step
(`initialise_calibration`) and in its commit state. -/
theorem onlyASuccessfulInitWritesTheCalibration : Obligations.OnlyASuccessfulInitWritesTheCalibration := by
  unfold Obligations.OnlyASuccessfulInitWritesTheCalibration
  intro s t hstep
  rcases step_eq_next hstep with ⟨-, -, rfl⟩ | ⟨c, rest, i, hidle, hcall, hdecode, hhost, -, rfl⟩ | ⟨-, rfl⟩
  · exact .inl ⟨rfl, rfl, id⟩
  · by_cases hi : ∃ bus ident, i = .init bus ident
    · obtain ⟨bus, ident, rfl⟩ := hi
      rcases initialise_calibration bus ident (s.taking rest) with ⟨hready, hret, -⟩ | ⟨hnot, hcoef, hosr⟩
      · exact .inr ⟨hready, hret, .inr ⟨hidle, bus, ident, c, rest, hcall, hdecode⟩⟩
      · exact .inl ⟨hcoef, hosr, fun hready => absurd (hready.symm.trans hnot) (by decide)⟩
    · have hinit : ∀ bus ident, i ≠ .init bus ident := fun bus ident he => hi ⟨bus, ident, he⟩
      obtain ⟨hcoef, hosr, hsame, -⟩ := effect_keeps_ready hhost hinit (s.taking rest)
      exact .inl ⟨hcoef, hosr, hsame.symm.trans⟩
  · by_cases hcommit : s.seq = .iniCommit
    · rw [seqStep_iniCommit hcommit]
      exact .inr ⟨rfl, rfl, .inl hcommit⟩
    · obtain ⟨hcoef, hosr, hsame⟩ := seqStep_keeps_calibration hcommit
      exact .inl ⟨hcoef, hosr, hsame.symm.trans⟩

/-! ### The invariant of a ready block -/

theorem inInit_of_pastOpen {q : SeqState} (h : pastOpen q = true) : inInit q = true := by
  cases q with
  | iniProm _ | iniCrc | iniCommit => rfl
  | _ => cases h

theorem inInit_eq_false_of_inMeasure {q : SeqState} (h : inMeasure q = true) : inInit q = false := by
  cases q with
  | iniOpen | iniProm _ | iniCrc | iniCommit => cases h
  | _ => rfl

theorem inv_of_idle {s : State} (hs : s.seq = .idle) (hready : s.initialized = true → readyBlock s) : Inv s := by
  refine ⟨hready, ?_, ?_, ?_, ?_, ?_⟩ <;> simp [hs, inInit, pastOpen, inMeasure]

theorem inv_of_idle_not_ready {s : State} (hs : s.seq = .idle) (hnot : s.initialized = false) : Inv s :=
  inv_of_idle hs fun h => absurd (h.symm.trans hnot) (by decide)

theorem inv_of_inMeasure {s : State} (hs : inMeasure s.seq = true) (hinit : s.initialized = true) (hready : readyBlock s) :
    Inv s := by
  have hnot : inInit s.seq ≠ true := by rw [inInit_eq_false_of_inMeasure hs]; decide
  refine ⟨fun _ => hready, fun h => absurd h hnot, fun h => absurd (inInit_of_pastOpen h) hnot, fun hq => ?_, fun hq => ?_,
    fun _ => hinit⟩
  · rw [hq] at hs; cases hs
  · rw [hq] at hs; cases hs

theorem inv_of_inInit {s : State} (hs : inInit s.seq = true) (hinit : s.initialized = false)
    (hopen : pastOpen s.seq = true → s.busOpen = true) (hcommit : s.seq = .iniCommit → calibrated s) : Inv s := by
  refine ⟨fun h => absurd (h.symm.trans hinit) (by decide), fun _ => hinit, hopen, hcommit, fun hq => ?_, fun hm => ?_⟩
  · rw [hq] at hs; cases hs
  · rw [inInit_eq_false_of_inMeasure hm] at hs; cases hs

/-- The calibration check of INI_CRC (R143, R144). -/
theorem calibrated_checkProm {s : State} (h : (checkProm s).crcOk = true) : calibrated (checkProm s) :=
  ⟨rfl, rfl, h, beq_iff_eq.mp h⟩

/-- INIT goes on over a block that is not ready, it fails, or it commits over an open transport what INI_CRC has passed. -/
theorem inv_seqStep_of_inInit {s : State} (hinv : Inv s) (hinit : inInit s.seq = true) : Inv (seqStep s) := by
  obtain ⟨-, hnot, hopen, hcal, -, -⟩ := hinv
  have hnot := hnot hinit
  unfold seqStep
  cases hq : s.seq with
  | iniOpen =>
    simp only [stepIniOpen]
    split
    · rename_i hopened
      exact inv_of_inInit rfl hnot (fun _ => hopened) nofun
    · exact inv_of_idle_not_ready rfl hnot
  | iniProm i =>
    have hbus : s.busOpen = true := hopen (by rw [hq]; rfl)
    simp only [stepIniProm]
    rcases promAdvance_cases i (stopsAfter i s) (promRead i s) with h | h | ⟨j, h⟩ <;> rw [h]
    · exact inv_of_idle_not_ready rfl hnot
    · exact inv_of_inInit rfl hnot (fun _ => hbus) nofun
    · exact inv_of_inInit rfl hnot (fun _ => hbus) nofun
  | iniCrc =>
    have hbus : s.busOpen = true := hopen (by rw [hq]; rfl)
    simp only [stepIniCrc]
    split
    · rename_i hmatch
      exact inv_of_inInit rfl hnot (fun _ => hbus) fun _ => calibrated_checkProm hmatch
    · exact inv_of_idle_not_ready rfl hnot
  | iniCommit =>
    have hbus : s.busOpen = true := hopen (by rw [hq]; rfl)
    exact inv_of_idle rfl fun _ => ⟨hbus, hcal hq, rfl, rfl, rfl, rfl⟩
  | _ => simp [hq, inInit] at hinit

/-- R32: a move of RESET or of MEASURE goes on in MEASURE or back to IDLE. -/
theorem seqStep_seq_outside_init {s : State} (h : inInit s.seq = false) :
    (seqStep s).seq = .idle ∨ inMeasure s.seq = true ∧ inMeasure (seqStep s).seq = true := by
  obtain ⟨hseq, -⟩ := seqStep_follows_rowOf s
  rw [hseq]
  unfold rowOf
  cases hq : s.seq with
  | idle | rstCmd | meaCommit => exact .inl rfl
  | meaTStart | meaTWait | meaTRead | meaPStart | meaPWait | meaComp => exact .inr ⟨rfl, rfl⟩
  | meaPRead =>
    simp only
    split
    · exact .inr ⟨rfl, rfl⟩
    · exact .inl rfl
  | iniOpen | iniProm _ | iniCrc | iniCommit => simp [hq, inInit] at h

/-- R35, R259: every move of the sequencer keeps the invariant. -/
theorem inv_seqStep {s : State} (hinv : Inv s) : Inv (seqStep s) := by
  cases hinit : inInit s.seq with
  | true => exact inv_seqStep_of_inInit hinv hinit
  | false =>
    obtain ⟨hready, -, -, -, -, hmeasure⟩ := hinv
    obtain ⟨-, -, hsame, hkeeps⟩ := seqStep_outside_init hinit
    rcases seqStep_seq_outside_init hinit with hidle | ⟨hin, hin'⟩
    · exact inv_of_idle hidle fun h => hkeeps (hready (hsame.symm.trans h))
    · exact inv_of_inMeasure hin' (hsame.trans (hmeasure hin)) (hkeeps (hready (hmeasure hin)))

/-- Every host operation that completes leaves SEQ in IDLE (R225). -/
theorem effect_seq {i : Instr} (hi : i.layer = .host) (s : State) : (effect i s).seq = .idle := by
  cases i with
  | reset => simp only [effect, resetCommand_eq]
  | init bus ident => rw [effect, initialise_frame]
  | measure p t h => rw [effect, measure_frame]
  | getevtT | getevtP | getmetaT | getmetaP => rfl
  | _ => cases hi

/-- R35, R259: every host operation, run as a whole, keeps the invariant. -/
theorem inv_effect {i : Instr} (hi : i.layer = .host) {s : State} (hinv : Inv s) : Inv (effect i s) := by
  refine inv_of_idle (effect_seq hi s) fun hready' => ?_
  by_cases hinit : ∃ bus ident, i = .init bus ident
  · obtain ⟨bus, ident, rfl⟩ := hinit
    rcases initialise_calibration bus ident s with ⟨-, -, hready⟩ | ⟨hnot, -, -⟩
    · exact hready
    · exact absurd (hready'.symm.trans hnot) (by decide)
  · obtain ⟨hready, -⟩ := hinv
    obtain ⟨-, -, hsame, hkeeps⟩ := effect_keeps_ready hi (fun bus ident he => hinit ⟨bus, ident, he⟩) s
    exact hkeeps (hready (hsame.symm.trans hready'))

/-- The queue of calls plays no part in the invariant. -/
theorem inv_taking {s : State} (hinv : Inv s) (rest : List HostCall) : Inv (s.taking rest) := hinv

/-- Settles O51: a host operation keeps the invariant as a whole (`inv_effect`), and so does every move of the sequencer
(`inv_seqStep`), the states of INIT among them. -/
theorem everyStepKeepsTheCalibrationTrusted : Obligations.EveryStepKeepsTheCalibrationTrusted := by
  unfold Obligations.EveryStepKeepsTheCalibrationTrusted
  intro s t hinv hstep
  rcases step_eq_next hstep with ⟨-, -, rfl⟩ | ⟨c, rest, i, -, -, -, hhost, -, rfl⟩ | ⟨-, rfl⟩
  · exact hinv
  · exact inv_effect hhost (inv_taking hinv rest)
  · exact inv_seqStep hinv

/-! ### MEASURE and the reading -/

/-- R229, R233: MEASURE keeps the cache or returns true. -/
theorem measure_cache (p t : Bool) (s : State) :
    (measure p t s).cache = s.cache ∨ (measure p t s).ret = some true := by
  rw [measure_eq]
  split
  · exact .inr rfl
  · rw [convCycle_eq]; exact .inl rfl

/-- No host operation but MEASURE writes the cache (R26). -/
theorem effect_keeps_cache {i : Instr} (hi : i.layer = .host) (hmea : ∀ p t h, i ≠ .measure p t h) (s : State) :
    (effect i s).cache = s.cache := by
  cases i with
  | reset => simp only [effect, resetCommand_eq]; rfl
  | init bus ident => rw [effect, initialise_frame]
  | measure p t h => exact absurd rfl (hmea p t h)
  | getevtT | getevtP | getmetaT | getmetaP => rfl
  | _ => cases hi

/-- Only the commit state of MEASURE writes the cache (R229). -/
theorem seqStep_keeps_cache {s : State} (hcommit : s.seq ≠ .meaCommit) : (seqStep s).cache = s.cache := by
  by_cases hini : s.seq = .iniCommit
  · rw [seqStep_iniCommit hini]; rfl
  cases hinit : inInit s.seq with
  | true => rw [seqStep_before_iniCommit hinit hini]
  | false => rw [seqStep_before_meaCommit hinit hcommit]

/-- Settles O55: outside MEASURE the cache is not written; MEASURE writes it only where it returns true. -/
theorem onlyASuccessfulMeasureWritesTheReading : Obligations.OnlyASuccessfulMeasureWritesTheReading := by
  unfold Obligations.OnlyASuccessfulMeasureWritesTheReading
  intro s t hstep
  rcases step_eq_next hstep with ⟨-, -, rfl⟩ | ⟨c, rest, i, hidle, hcall, hdecode, hhost, -, rfl⟩ | ⟨-, rfl⟩
  · exact .inl rfl
  · by_cases hi : ∃ p q h, i = .measure p q h
    · obtain ⟨p, q, h, rfl⟩ := hi
      rcases measure_cache p q (s.taking rest) with hcache | hret
      · exact .inl hcache
      · exact .inr ⟨hret, .inr ⟨hidle, p, q, h, c, rest, hcall, hdecode⟩⟩
    · exact .inl (effect_keeps_cache hhost (fun p q h he => hi ⟨p, q, h, he⟩) (s.taking rest))
  · by_cases hcommit : s.seq = .meaCommit
    · rw [seqStep_meaCommit hcommit]
      exact .inr ⟨rfl, .inl hcommit⟩
    · exact .inl (seqStep_keeps_cache hcommit)

/-! ### One step in IDLE, refusals, the PROM buffer -/

/-- Settles O6: the definition of `step`, read at the head of the queue. -/
theorem stepRunsTheDecodedOperation : Obligations.StepRunsTheDecodedOperation := by
  unfold Obligations.StepRunsTheDecodedOperation
  intro s c rest i hidle hcall hdecode hwf
  change step s = exec i (s.taking rest)
  simp only [step, hidle, hcall, hdecode, hwf, if_true]

/-- Settles O9: every host operation is a `hostOperation`, which is refused while SEQ is not IDLE. -/
theorem hostOperationsAreRefusedOutsideIdle : Obligations.HostOperationsAreRefusedOutsideIdle := by
  unfold Obligations.HostOperationsAreRefusedOutsideIdle
  intro i s hhost hbusy
  cases i with
  | reset | init _ _ | measure _ _ _ | getevtT | getevtP | getmetaT | getmetaP => exact hostOperation_busy hbusy
  | _ => cases hhost

/-- Settles O15, by the two rules of a write of the buffer (`PromBuf.get_set_self`, `PromBuf.get_set_of_ne`). -/
theorem promBufferReadAfterWrite : Obligations.PromBufferReadAfterWrite := by
  unfold Obligations.PromBufferReadAfterWrite
  intro b i j v
  split
  · rename_i h
    rw [h, PromBuf.get_set_self]
  · rename_i h
    exact PromBuf.get_set_of_ne b v h

end Sys2Proof.Machine

namespace Sys2Proof.Machine

/-! ### The PROM read -/

/-- R94, R69: a PROM read asks for two bytes at PROM_BASE + 2 * i, in unbounded numbers. -/
theorem promRequest_eq (i : Fin 7) (s : State) :
    promRequest i s = .busWriteRead (BitVec.ofNat 8 (s.cfg.promBase.toNat + 2 * i.val)) 2 := by
  rw [promRequest, promrdByte_eq]
  rfl

/-- R65: the word of a read that succeeded has its first byte in bits 15:8. -/
theorem promReadWord_of_ok {i : Fin 7} {s : State} {a b : Byte} (hdata : (busAnswer (promRequest i s) s).data = [a, b])
    (hok : (busAnswer (promRequest i s) s).ok = true) :
    promReadWord i s = BitVec.ofNat 16 (a.toNat * 256 + b.toNat) := by
  simp only [promReadWord, hok, if_true, hdata, promWord_pair]

/-- Settles O14: the answer has two bytes, the word latched is theirs (`promReadWord_of_ok`), and `promRead_eq` is the
frame. -/
theorem promReadLatchesItsWord : Obligations.PromReadLatchesItsWord := by
  unfold Obligations.PromReadLatchesItsWord
  intro k s hhang
  rw [← promRequest_eq k s]
  obtain ⟨a, b, hdata⟩ := list_two (busAnswer_length (promRequest k s) s)
  refine ⟨a, b, promReadWord k s, hdata, promReadWord_of_ok hdata, ?_⟩
  have hexec : exec (.cmdPromrd k) s = .next (promRead k s) := exec_completes trivial hhang
  rw [hexec, promRead_eq]
  rfl

end Sys2Proof.Machine

/-!
The two encoding spaces (spec/30_encoding.md): the fields of a host command word in numbers and what its decoder answers
(R99, R102), the command bytes (R93 to R95), and what a step may ask of a collaborator (R104, R237). For the last, every
state of SEQ and every operation has the list of its asks (`seqAsks`, `effectAsks`); that a step makes only these
(`AsksOnly`) and that each of them is allowed are proved apart.
-/

namespace Sys2Proof.Machine

open Sys2Proof.Safety

/-! ### The fields of a host command word, in numbers (R99) -/

theorem hostOp_toNat (b : Byte) : (hostOp b).toNat = b.toNat / 32 := by
  have hb := b.isLt
  rw [hostOp, BitVec.extractLsb'_toNat, Nat.shiftRight_eq_div_pow]
  omega

theorem wantBits_eq_zero_iff (b : Byte) : b.extractLsb' 2 3 = 0#3 ↔ b.toNat / 4 % 8 = 0 := by
  rw [← BitVec.toNat_inj, BitVec.extractLsb'_toNat, Nat.shiftRight_eq_div_pow]
  rfl

theorem lowBits_eq_zero_iff (b : Byte) : b.extractLsb' 0 2 = 0#2 ↔ b.toNat % 4 = 0 := by
  rw [← BitVec.toNat_inj, BitVec.extractLsb'_toNat]
  rfl

theorem measureWord_toNat (p t h : Bool) :
    (measureWord p t h).toNat = 64 + 16 * p.toNat + 8 * t.toNat + 4 * h.toNat := by
  decide +revert

/-- A word with `op` = 2 and clear low bits is the word of the MEASURE its want bits ask for. -/
theorem measureWord_wantBits {b : Byte} (hop : (hostOp b).toNat = 2) (hlow : b.extractLsb' 0 2 = 0#2) :
    measureWord (wantPBit b) (wantTBit b) (wantHBit b) = b := by
  rw [hostOp_toNat] at hop
  rw [lowBits_eq_zero_iff] at hlow
  apply BitVec.eq_of_toNat_eq
  simp only [measureWord_toNat, wantPBit, wantTBit, wantHBit, BitVec.getLsbD, Nat.toNat_testBit]
  omega

/-! ### What the decoder answers (R99, R102) -/

theorem withoutWants_eq_ok_iff {b : Byte} {i j : Instr} :
    withoutWants b i = .ok j ↔ b.toNat / 4 % 8 = 0 ∧ i = j := by
  rw [← wantBits_eq_zero_iff, withoutWants]
  split <;> simp [*]

theorem decodeHost_measureWord (p t h : Bool) (bus ident : Nat) :
    decodeHost ⟨measureWord p t h, bus, ident⟩ = .ok (.measure p t h) := by
  have hlow : (measureWord p t h).extractLsb' 0 2 = 0#2 := by decide +revert
  have hop : hostOp (measureWord p t h) = 2#3 := by decide +revert
  have hp : wantPBit (measureWord p t h) = p := by decide +revert
  have ht : wantTBit (measureWord p t h) = t := by decide +revert
  have hh : wantHBit (measureWord p t h) = h := by decide +revert
  simp only [decodeHost, hlow, hop, hp, ht, hh]
  rfl

theorem decodeHost_initWord (bus ident : Nat) : decodeHost ⟨0x20#8, bus, ident⟩ = .ok (.init bus ident) := by
  simp [decodeHost, hostOp, withoutWants]

/-- An operation without want bits is decoded from its own word: `op` and nothing else set. -/
theorem encodeHost_of_withoutWants {c c' : HostCall} {i j : Instr} {op : Nat} (h : withoutWants c.word i = .ok j)
    (hop : (hostOp c.word).toNat = op) (hlow : c.word.extractLsb' 0 2 = 0#2) (henc : encodeHost i = some c')
    (hword : c'.word.toNat = 32 * op) : ∃ c', encodeHost j = some c' ∧ c'.word = c.word := by
  obtain ⟨hwants, rfl⟩ := withoutWants_eq_ok_iff.mp h
  rw [hostOp_toNat] at hop
  rw [lowBits_eq_zero_iff] at hlow
  refine ⟨c', henc, BitVec.eq_of_toNat_eq ?_⟩
  omega

/-- The words that are an operation are those R102 does not reserve. -/
theorem exists_decodeHost_eq_ok_iff (c : HostCall) : (∃ i, decodeHost c = .ok i) ↔ ¬ reservedWord c.word := by
  have hop := hostOp_toNat c.word
  have hlt := c.word.isLt
  unfold decodeHost reservedWord
  simp only [ne_eq, lowBits_eq_zero_iff]
  split
  · simp only [reduceCtorEq, exists_false, false_iff, not_not]
    omega
  · split
    case h_3 => simp only [Except.ok.injEq, exists_eq', true_iff]; omega
    case h_8 => simp only [imp_false, reduceCtorEq, exists_false, false_iff, not_not] at *; omega
    all_goals
      simp only [withoutWants_eq_ok_iff, exists_and_left, exists_eq', and_true]
      omega

theorem decodeHost_of_reservedWord {c : HostCall} (h : reservedWord c.word) : ∃ why, decodeHost c = .error why := by
  cases hd : decodeHost c with
  | error why => exact ⟨why, rfl⟩
  | ok i => exact absurd h ((exists_decodeHost_eq_ok_iff c).mp ⟨i, hd⟩)

/-- Settles O1: the word of each operation has its `op` and want bits in the fields the decoder reads
(`decodeHost_measureWord` for MEASURE), and the operands of INIT travel beside it. -/
theorem hostEncodeDecodeRoundTrip : Obligations.HostEncodeDecodeRoundTrip := by
  unfold Obligations.HostEncodeDecodeRoundTrip
  intro i c henc
  cases i with
  | measure p t h => cases henc; exact decodeHost_measureWord p t h 0 0
  | init bus ident => cases henc; exact decodeHost_initWord bus ident
  | reset | getevtT | getevtP | getmetaT | getmetaP => cases henc; rfl
  | _ => cases henc

/-- Settles O2, by the arms of the decoder: the three fields of a word fix it. -/
theorem decodedHostWordsAreTheEncodedOnes : Obligations.DecodedHostWordsAreTheEncodedOnes := by
  unfold Obligations.DecodedHostWordsAreTheEncodedOnes
  intro i c h
  unfold decodeHost at h
  split at h
  · cases h
  · rename_i hset
    have hlow : c.word.extractLsb' 0 2 = 0#2 := not_not.mp hset
    split at h
    case h_1 hop => exact encodeHost_of_withoutWants h hop hlow rfl rfl
    case h_2 hop => exact encodeHost_of_withoutWants h hop hlow rfl rfl
    case h_3 hop => cases h; exact ⟨_, rfl, measureWord_wantBits hop hlow⟩
    case h_4 hop => exact encodeHost_of_withoutWants h hop hlow rfl rfl
    case h_5 hop => exact encodeHost_of_withoutWants h hop hlow rfl rfl
    case h_6 hop => exact encodeHost_of_withoutWants h hop hlow rfl rfl
    case h_7 hop => exact encodeHost_of_withoutWants h hop hlow rfl rfl
    case h_8 => cases h

/-- Settles O4, by running the decoder on the thirteen words. -/
theorem hostWordsOfTheTableDecode : Obligations.HostWordsOfTheTableDecode := by
  unfold Obligations.HostWordsOfTheTableDecode
  decide

/-! ### Reserved words and the step (R102) -/

theorem finish_ne_refused (s t : State) (r : Refusal) : finish s t ≠ .refused r := by
  rcases finish_cases s t with h | ⟨-, -, -, -, h⟩ <;> rw [h] <;> nofun

/-- A host operation is refused as busy or for its precondition, and for nothing else. -/
theorem hostOperation_ne_refused {pre : Bool} {why r : Refusal} {s t : State} (hbusy : r ≠ .busy) (hwhy : r ≠ why) :
    hostOperation pre why s t ≠ .refused r := by
  unfold hostOperation
  split
  · split
    · exact finish_ne_refused s t r
    · exact fun h => hwhy (Host.Outcome.refused.inj h).symm
  · exact fun h => hbusy (Host.Outcome.refused.inj h).symm

/-- An operation is never refused as a reserved word: it has been decoded. -/
theorem exec_ne_reservedHostWord (i : Instr) (s : State) (why : ReservedWord) :
    exec i s ≠ .refused (.reservedHostWord why) := by
  cases i with
  | reset | init _ _ | measure _ _ _ | getevtT | getevtP | getmetaT | getmetaP =>
    exact hostOperation_ne_refused nofun nofun
  | crc4Chk _ | promLoad | convSeq | comp | evtFill _ => exact finish_ne_refused _ _ _
  | cmdReset | cmdPromrd _ | cmdConvT | cmdConvP | cmdAdcrd _ => exact finish_ne_refused _ _ _

/-- Settles O3: the decoder fails exactly on the reserved words (`exists_decodeHost_eq_ok_iff`), and no operation is refused
for that reason. -/
theorem reservedHostWordsAreRefused : Obligations.ReservedHostWordsAreRefused := by
  unfold Obligations.ReservedHostWordsAreRefused
  intro s c rest hidle hcall
  constructor
  · intro hres
    obtain ⟨why, hdecode⟩ := decodeHost_of_reservedWord hres
    exact ⟨why, by simp only [step, hidle, hcall, hdecode]⟩
  · intro hfree
    obtain ⟨i, hdecode⟩ := (exists_decodeHost_eq_ok_iff c).mpr hfree
    refine ⟨⟨i, hdecode⟩, fun why => ?_⟩
    simp only [step, hidle, hcall, hdecode]
    split
    · exact exec_ne_reservedHostWord i _ why
    · nofun

/-! ### The command bytes (R93 to R95) -/

/-- Settles O5: the two computed bytes are `convByte_eq` and `promrdByte_eq`, the other two are parameters. -/
theorem commandBytesAreAssembledFromTheirParts : Obligations.CommandBytesAreAssembledFromTheirParts := by
  unfold Obligations.CommandBytesAreAssembledFromTheirParts
  intro cfg osr k dest
  exact ⟨congrArg some (convByte_eq osr cfg.flagTemp), congrArg some (convByte_eq osr cfg.flagPress),
    congrArg some (promrdByte_eq cfg.promBase k), rfl, rfl⟩

/-! ### What a move asks of its collaborators (R237) -/

/-- From `s` to `t` events were only appended, and they ask for `asks`, in this order, perhaps cut short. -/
def AsksOnly (asks : List Ask) (s t : State) : Prop :=
  ∃ evs, t.trace = s.trace ++ evs ∧ evs.map askOf <+: asks

theorem asksOnly_of_trace_eq {asks : List Ask} {s t : State} (h : t.trace = s.trace) : AsksOnly asks s t :=
  ⟨[], by rw [h, List.append_nil], List.nil_prefix⟩

theorem AsksOnly.refl (asks : List Ask) (s : State) : AsksOnly asks s s := asksOnly_of_trace_eq rfl

theorem AsksOnly.of_trace_eq {asks : List Ask} {s t u : State} (h : AsksOnly asks s t) (ht : u.trace = t.trace) :
    AsksOnly asks s u := by
  obtain ⟨evs, htrace, hasks⟩ := h
  exact ⟨evs, ht.trans htrace, hasks⟩

/-- One more event before. -/
theorem AsksOnly.after {e : Event} {asks : List Ask} {s t u : State} (h : AsksOnly asks t u)
    (ht : t.trace = s.trace ++ [e]) : AsksOnly (askOf e :: asks) s u := by
  obtain ⟨evs, htrace, hasks⟩ := h
  refine ⟨e :: evs, ?_, (List.prefix_cons_inj _).mpr hasks⟩
  rw [htrace, ht, List.append_assoc, List.singleton_append]

theorem asksOnly_of_event (e : Event) {s t : State} (h : t.trace = s.trace ++ [e]) : AsksOnly [askOf e] s t :=
  (AsksOnly.refl [] t).after h

theorem AsksOnly.askOf_mem {asks : List Ask} {s t : State} (h : AsksOnly asks s t) :
    t.trace = s.trace ++ newEvents s t ∧ ∀ e ∈ newEvents s t, askOf e ∈ asks := by
  obtain ⟨evs, htrace, hasks⟩ := h
  have hnew : newEvents s t = evs := by rw [newEvents, htrace, List.drop_left]
  rw [hnew]
  exact ⟨htrace, fun e he => hasks.subset (List.mem_map_of_mem he)⟩

/-- What a state of SEQ asks for (R32, R237). -/
def seqAsks (s : State) : List Ask :=
  match s.seq with
  | .rstCmd => [.transaction (.busWrite s.cfg.cmdReset)]
  | .iniOpen => [.transaction (openRequest s)]
  | .iniProm i => [.transaction (promRequest i s)]
  | .meaTStart => [.transaction (.busWrite (convTByte s))]
  | .meaPStart => [.transaction (.busWrite (convPByte s))]
  | .meaTWait | .meaPWait => [.delay settleMs]
  | .meaTRead | .meaPRead => [.transaction (adcRequest s)]
  | .idle | .iniCrc | .iniCommit | .meaComp | .meaCommit => []

/-- What an operation asks for when its transactions succeed (R237). -/
def effectAsks (i : Instr) (s : State) : List Ask :=
  match i with
  | .reset | .cmdReset => [.transaction (.busWrite s.cfg.cmdReset)]
  | .init bus _ => .transaction (.busOpen bus s.cfg.devAddr) :: promAsks s
  | .promLoad => promAsks s
  | .measure _ _ _ | .convSeq => measureAsks s
  | .cmdPromrd k => [.transaction (promRequest k s)]
  | .cmdConvT => [.transaction (.busWrite (convTByte s))]
  | .cmdConvP => [.transaction (.busWrite (convPByte s))]
  | .cmdAdcrd _ => [.transaction (adcRequest s)]
  | .getevtT | .getevtP | .getmetaT | .getmetaP | .crc4Chk _ | .comp | .evtFill _ => []

/-- The asks of the cycle through the model's own command bytes and requests. -/
theorem measureAsks_eq (s : State) :
    measureAsks s =
      [.transaction (.busWrite (convTByte s)), .delay settleMs, .transaction (adcRequest s),
       .transaction (.busWrite (convPByte s)), .delay settleMs, .transaction (adcRequest s)] := by
  rw [convTByte, convPByte, convByte_eq, convByte_eq]
  rfl

theorem commitAndFill_trace (s : State) : (commitAndFill s).trace = s.trace := by rw [commitAndFill_eq]

theorem seqStep_asksOnly (s : State) : AsksOnly (seqAsks s) s (seqStep s) := by
  unfold seqAsks seqStep
  cases s.seq with
  | rstCmd => rw [resetCommand_eq]; exact asksOnly_of_event (.txn _ _) rfl
  | iniOpen => simp only [stepIniOpen]; split <;> exact asksOnly_of_event (.txn _ _) rfl
  | iniProm i => simp only [stepIniProm]; rw [promAdvance_frame]; exact asksOnly_of_event (.txn _ _) rfl
  | iniCrc => simp only [stepIniCrc]; split <;> exact asksOnly_of_trace_eq rfl
  | meaPRead => simp only [stepMeaPRead]; split <;> exact asksOnly_of_event (.txn _ _) rfl
  | meaCommit => exact asksOnly_of_trace_eq (commitAndFill_trace s)
  | idle | iniCommit | meaComp => exact asksOnly_of_trace_eq rfl
  | meaTStart | meaTRead | meaPStart => exact asksOnly_of_event (.txn _ _) rfl
  | meaTWait | meaPWait => exact asksOnly_of_event (.delay settleMs) rfl

/-- R141, R142: the loader asks for the seven words in order, perhaps cut short. -/
theorem promLoad_asksOnly (s : State) : AsksOnly (promAsks s) s (promLoad s) := by
  obtain ⟨evs, htrace, hasks, -⟩ := promReads_events promIndices s.startStatus
  refine ⟨evs, (promLoad_trace s).trans htrace, ?_⟩
  rw [hasks, promAsks_eq]
  exact List.take_prefix _ _

/-- INIT makes the event of BusOpen, and, over an open transport, those of the loader (R226). -/
theorem initialise_trace (bus ident : Nat) (s : State) :
    (initialise bus ident s).trace = (openBus (initStart bus ident s)).trace ∨
      (initialise bus ident s).trace = (promLoad (openBus (initStart bus ident s))).trace := by
  by_cases hopen : (openBus (initStart bus ident s)).busOpen = true
  · rw [initialise_of_busOpen hopen]
    split <;> exact .inr rfl
  · simp only [initialise, if_neg hopen]
    exact .inl rfl

/-- R226, R142: INIT asks for the transport and then for the seven words, perhaps cut short. -/
theorem initialise_asksOnly (bus ident : Nat) (s : State) :
    AsksOnly (effectAsks (.init bus ident) s) s (initialise bus ident s) := by
  have hopen : (openBus (initStart bus ident s)).trace =
      s.trace ++ [.txn (.busOpen bus s.cfg.devAddr) (busAnswer (.busOpen bus s.cfg.devAddr) (initStart bus ident s))] := rfl
  rcases initialise_trace bus ident s with h | h
  · exact (asksOnly_of_trace_eq h).after hopen
  · exact ((promLoad_asksOnly (openBus (initStart bus ident s))).of_trace_eq h).after hopen

/-- R155, R165: the cycle makes its six events whatever the transport answers. -/
theorem convCycle_trace (s : State) : ∃ a b c d, (convCycle s).trace = s.trace ++
    [.txn (.busWrite (convTByte s)) a, .delay settleMs, .txn (adcRequest s) b,
     .txn (.busWrite (convPByte s)) c, .delay settleMs, .txn (adcRequest s) d] := by
  simp [convCycle, readP, waitP, convStartP, readT, waitT, convStartT, adcRead, adcRequest, convTByte, convPByte]

theorem convCycle_asksOnly (s : State) : AsksOnly (measureAsks s) s (convCycle s) := by
  obtain ⟨a, b, c, d, htrace⟩ := convCycle_trace s
  rw [measureAsks_eq]
  exact ⟨_, htrace, List.prefix_rfl⟩

theorem measure_trace (p t : Bool) (s : State) : (measure p t s).trace = (convCycle (measureStart p t s)).trace := by
  rw [measure_eq]
  split
  · exact commitAndFill_trace _
  · rfl

/-- R237: every operation, run as a whole, makes its events and no others. -/
theorem effect_asksOnly (i : Instr) (s : State) : AsksOnly (effectAsks i s) s (effect i s) := by
  cases i with
  | reset | cmdReset => rw [effect, resetCommand_eq]; exact asksOnly_of_event (.txn _ _) rfl
  | init bus ident => exact initialise_asksOnly bus ident s
  | measure p t h => exact (convCycle_asksOnly (measureStart p t s)).of_trace_eq (measure_trace p t s)
  | promLoad => exact promLoad_asksOnly s
  | convSeq => exact convCycle_asksOnly s
  | cmdAdcrd dest => exact asksOnly_of_event (.txn _ _) (latchRaw_trace _ dest _)
  | cmdPromrd _ | cmdConvT | cmdConvP => exact asksOnly_of_event (.txn _ _) rfl
  | getevtT | getevtP | getmetaT | getmetaP | crc4Chk _ | comp | evtFill _ => exact asksOnly_of_trace_eq rfl

/-! ### What a move asks is allowed (R104) -/

/-- `configuredAsk` is `allowedAsk` with OSR_ORD in OSR. -/
theorem configuredAsk_eq (s : State) : configuredAsk s = allowedAsk { s with osr := s.cfg.osrOrd } := rfl

theorem seqAsks_allowed {s : State} {osr : Byte} (hosr : inMeasure s.seq = true → s.osr = osr) :
    ∀ a ∈ seqAsks s, allowedAsk { s with osr := osr } a := by
  unfold seqAsks
  cases hq : s.seq with
  | rstCmd => exact List.forall_mem_singleton.mpr (.inl rfl)
  | iniOpen | meaTWait | meaPWait => exact List.forall_mem_singleton.mpr rfl
  | iniProm i => exact List.forall_mem_singleton.mpr (.inl ⟨rfl, i, rfl⟩)
  | meaTStart =>
    obtain rfl := hosr (by rw [hq]; rfl)
    exact List.forall_mem_singleton.mpr (.inr (.inl rfl))
  | meaPStart =>
    obtain rfl := hosr (by rw [hq]; rfl)
    exact List.forall_mem_singleton.mpr (.inr (.inr rfl))
  | meaTRead | meaPRead => exact List.forall_mem_singleton.mpr (.inr ⟨rfl, rfl⟩)
  | idle | iniCrc | iniCommit | meaComp | meaCommit => exact nofun

theorem effectAsks_allowed {i : Instr} (hi : i.layer = .host) {s : State} {osr : Byte}
    (hosr : (∃ p t h, i = .measure p t h) → s.osr = osr) :
    ∀ a ∈ effectAsks i s, allowedAsk { s with osr := osr } a := by
  cases i with
  | reset => exact List.forall_mem_singleton.mpr (.inl rfl)
  | init bus ident =>
    rw [effectAsks, promAsks_eq]
    exact List.forall_mem_cons.mpr ⟨rfl, List.forall_mem_map.mpr fun k _ => .inl ⟨rfl, k, rfl⟩⟩
  | measure p t h =>
    obtain rfl := hosr ⟨p, t, h, rfl⟩
    simp only [effectAsks, measureAsks_eq, List.forall_mem_cons]
    exact ⟨.inr (.inl rfl), rfl, .inr ⟨rfl, rfl⟩, .inr (.inr rfl), rfl, .inr ⟨rfl, rfl⟩, nofun⟩
  | getevtT | getevtP | getmetaT | getmetaP => exact nofun
  | _ => cases hi

/-- A step only appends events, and what it asks is allowed at any resolution `osr` that OSR holds wherever MEASURE runs or may
be accepted. -/
theorem step_asks_allowed {s t : State} {osr : Byte} (hstep : step s = .next t)
    (hosr : inMeasure s.seq = true ∨ s.initialized = true → s.osr = osr) :
    t.trace = s.trace ++ newEvents s t ∧ ∀ e ∈ newEvents s t, allowedAsk { s with osr := osr } (askOf e) := by
  have hasks : ∃ asks, AsksOnly asks s t ∧ ∀ a ∈ asks, allowedAsk { s with osr := osr } a := by
    rcases step_eq_next hstep with ⟨-, -, rfl⟩ | ⟨c, rest, i, -, -, -, hhost, hadmits, rfl⟩ | ⟨-, rfl⟩
    · exact ⟨[], .refl [] _, nofun⟩
    · refine ⟨effectAsks i s, effect_asksOnly i (s.taking rest), effectAsks_allowed hhost ?_⟩
      rintro ⟨p, q, h, rfl⟩
      obtain ⟨-, hready⟩ := hadmits
      exact hosr (.inr hready)
    · exact ⟨seqAsks s, seqStep_asksOnly s, seqAsks_allowed fun h => hosr (.inl h)⟩
  obtain ⟨asks, honly, hallowed⟩ := hasks
  obtain ⟨htrace, hmem⟩ := honly.askOf_mem
  exact ⟨htrace, fun e he => hallowed _ (hmem e he)⟩

/-- Settles O56: `step_asks_allowed` at the resolution OSR holds. -/
theorem stepsAskOnlyForAllowedEvents : Obligations.StepsAskOnlyForAllowedEvents := by
  unfold Obligations.StepsAskOnlyForAllowedEvents
  intro s t hstep
  exact step_asks_allowed hstep fun _ => rfl

/-- R35, R40: a block that is ready, or in a MEASURE, holds OSR_ORD in OSR. -/
theorem osr_eq_osrOrd_of_inv {s : State} (hinv : Inv s) (h : inMeasure s.seq = true ∨ s.initialized = true) :
    s.osr = s.cfg.osrOrd := by
  obtain ⟨hready, -, -, -, -, hmeasure⟩ := hinv
  obtain ⟨-, -, -, hosr, -, -⟩ := hready (h.elim hmeasure id)
  exact hosr

/-- Settles O57: `step_asks_allowed` at OSR_ORD, which OSR holds wherever a conversion can start (`osr_eq_osrOrd_of_inv`). -/
theorem conversionsAreAskedForAtTheConfiguredResolution :
    Obligations.ConversionsAreAskedForAtTheConfiguredResolution := by
  unfold Obligations.ConversionsAreAskedForAtTheConfiguredResolution
  intro s t hinv hstep
  rw [configuredAsk_eq]
  obtain ⟨-, hasks⟩ := step_asks_allowed hstep (osr_eq_osrOrd_of_inv hinv)
  exact hasks

end Sys2Proof.Machine

/-!
The CRC-4 validator (spec/40_crc4_validator.md). The bridge of R129 is `HasRead`: at a byte boundary bits 15:12 of REM are
form B's register over all the bits read but the last four, bits 11:8 are those four, and bits 7:0 are zero. R130 (a) is then
a fact about form B alone: two messages that differ in one bit (`OneBitApart`) leave different remainders.
-/

namespace Sys2Proof.Machine

open Sys2Proof.Safety

/-! ### The bit steps of REM as steps of form B (R123, R129) -/

/-- The first `n` of the bits 11, 10, … of REM: the bits that the next `n` bit steps move into bits 15:12. -/
def leadingBits (n : Nat) (r : Word16) : List Bool := (List.range n).map fun k => r.getLsbD (11 - k)

theorem crcBitStep_top (r : Word16) :
    (crcBitStep r).extractLsb' 12 4 = formBStep (r.extractLsb' 12 4) (r.getLsbD 11) := by
  have htop : (r.extractLsb' 12 4).getLsbD 3 = r.msb := by simp [BitVec.msb_eq_getLsbD_last]
  unfold crcBitStep formBStep
  rw [htop]
  split <;> ext i hi <;> interval_cases i <;> simp

theorem crcBitStep_getLsbD_low (r : Word16) {j : Nat} (hj : j < 12) :
    (crcBitStep r).getLsbD j = (decide (1 ≤ j) && r.getLsbD (j - 1)) := by
  unfold crcBitStep
  split <;> interval_cases j <;> simp

theorem leadingBits_succ {n : Nat} (hn : n < 12) (r : Word16) :
    leadingBits (n + 1) r = r.getLsbD 11 :: leadingBits n (crcBitStep r) := by
  rw [leadingBits, List.range_succ_eq_map, List.map_cons, List.map_map]
  congr 1
  refine List.map_congr_left fun k hk => ?_
  have hk' := List.mem_range.mp hk
  rw [crcBitStep_getLsbD_low r (by omega), decide_eq_true (by omega), Bool.true_and]
  rfl

theorem crcBitSteps_top {n : Nat} (hn : n ≤ 12) (r : Word16) :
    (crcBitSteps n r).extractLsb' 12 4 = (leadingBits n r).foldl formBStep (r.extractLsb' 12 4) := by
  induction n generalizing r with
  | zero => rfl
  | succ n ih =>
    rw [leadingBits_succ hn, List.foldl_cons, ← crcBitStep_top]
    exact ih (by omega) (crcBitStep r)

theorem crcBitSteps_getLsbD_low (n : Nat) (r : Word16) {j : Nat} (hj : j < 12) :
    (crcBitSteps n r).getLsbD j = (decide (n ≤ j) && r.getLsbD (j - n)) := by
  induction n generalizing r with
  | zero => simp [crcBitSteps]
  | succ n ih =>
    rw [crcBitSteps, ih]
    by_cases h : n < j
    · rw [crcBitStep_getLsbD_low r (by omega)]
      simp [show n ≤ j by omega, show 1 ≤ j - n by omega, show n + 1 ≤ j by omega, Nat.sub_sub]
    · obtain rfl | hlt : n = j ∨ j < n := by omega
      · simp [crcBitStep_getLsbD_low r (show 0 < 12 by omega), -BitVec.getLsbD_eq_getElem]
      · simp [show ¬ n ≤ j by omega, show ¬ n + 1 ≤ j by omega]

/-! ### The stream of bytes (R122, R129) -/

/-- The bits of a byte, most significant first. -/
def byteBits (b : Byte) : List Bool :=
  [b.getLsbD 7, b.getLsbD 6, b.getLsbD 5, b.getLsbD 4, b.getLsbD 3, b.getLsbD 2, b.getLsbD 1, b.getLsbD 0]

/-- What REM holds at a byte boundary once `bits` have been read: the register of form B over all but the last four of them,
these four, and eight zeros. -/
def HasRead (bits : List Bool) (r : Word16) : Prop :=
  ∃ done, done ++ leadingBits 4 r = bits ∧ r.extractLsb' 12 4 = done.foldl formBStep 0 ∧ ∀ j < 8, r.getLsbD j = false

/-- REM starts at zero (R121), as if four zero bits had been read. -/
theorem hasRead_zero : HasRead (List.replicate 4 false) 0 := ⟨[], rfl, rfl, fun _ _ => BitVec.getLsbD_zero⟩

theorem hasRead_crcByteStep {bits : List Bool} {r : Word16} (h : HasRead bits r) (b : Byte) :
    HasRead (bits ++ byteBits b) (crcByteStep r b) := by
  obtain ⟨done, rfl, htop, hlow⟩ := h
  have hentered : leadingBits 8 (r ^^^ b.zeroExtend 16) =
      leadingBits 4 r ++ [b.getLsbD 7, b.getLsbD 6, b.getLsbD 5, b.getLsbD 4] := by
    simp [leadingBits, List.range_succ, hlow, -BitVec.getLsbD_eq_getElem]
  have hpending : leadingBits 4 (crcByteStep r b) = [b.getLsbD 3, b.getLsbD 2, b.getLsbD 1, b.getLsbD 0] := by
    simp [leadingBits, List.range_succ, crcByteStep, crcBitSteps_getLsbD_low, hlow, -BitVec.getLsbD_eq_getElem]
  have hkept : (r ^^^ b.zeroExtend 16).extractLsb' 12 4 = r.extractLsb' 12 4 := by
    ext i hi
    simp [BitVec.getLsbD_of_ge b (12 + i) (by omega)]
  refine ⟨done ++ leadingBits 8 (r ^^^ b.zeroExtend 16), ?_, ?_, fun j hj => ?_⟩
  · simp [hentered, hpending, byteBits]
  · rw [crcByteStep, crcBitSteps_top (by omega), hkept, htop, List.foldl_append]
  · simp [crcByteStep, crcBitSteps_getLsbD_low 8 _ (show j < 12 by omega), hj]

theorem hasRead_crcBytesFrom {bits : List Bool} {r : Word16} (h : HasRead bits r) (bytes : List Byte) :
    HasRead (bits ++ bytes.flatMap byteBits) (crcBytesFrom r bytes) := by
  induction bytes generalizing bits r with
  | nil => simpa [crcBytesFrom] using h
  | cons b rest ih => simpa [crcBytesFrom] using ih (hasRead_crcByteStep h b)

theorem flatMap_byteBits_wordBytes (v : Word16) : (wordBytes v).flatMap byteBits = wordBits v := by
  simp [wordBytes, byteBits, wordBits]

/-- R121, R129: the stream of the validator is the message followed by the sixteen zeros of word 7. -/
theorem flatMap_byteBits_crcStream (w : PromBuf) :
    (crcStream (crcInput w)).flatMap byteBits = messageBits w ++ (List.replicate 12 false ++ List.replicate 4 false) := by
  have hzero : wordBits 0 = List.replicate 12 false ++ List.replicate 4 false := by decide
  simp only [crcStream, List.flatMap_append, flatMap_byteBits_wordBytes, crcInput, hzero, maskCrc, messageBits]

/-- R129: after the last bit step REM has read, behind its four zeros at the start, the message and sixteen zeros. -/
theorem hasRead_crcRemainder (w : PromBuf) :
    HasRead (List.replicate 4 false ++ (messageBits w ++ List.replicate 12 false) ++ List.replicate 4 false)
      (crcRemainder w) := by
  have h := hasRead_crcBytesFrom hasRead_zero (crcStream (crcInput w))
  rw [flatMap_byteBits_crcStream] at h
  rwa [List.append_assoc, List.append_assoc]

/-- Zeros ahead of the message leave form B as it is. -/
theorem foldl_formBStep_zeros (n : Nat) : (List.replicate n false).foldl formBStep 0 = 0 := by
  induction n with
  | zero => rfl
  | succ n ih => exact ih

/-- R129: the bits of REM after the last bit step. -/
theorem crcRemainder_bits (w : PromBuf) : crc4 w = formB w ∧ ∀ j < 12, (crcRemainder w).getLsbD j = false := by
  obtain ⟨done, hbits, htop, hlow⟩ := hasRead_crcRemainder w
  obtain ⟨rfl, hpending⟩ := List.append_inj' hbits (by simp [leadingBits])
  rw [List.foldl_append, foldl_formBStep_zeros] at htop
  refine ⟨htop, fun j hj => ?_⟩
  by_cases h : j < 8
  · exact hlow j h
  · have hmem : (crcRemainder w).getLsbD j ∈ leadingBits 4 (crcRemainder w) :=
      List.mem_map.mpr ⟨11 - j, List.mem_range.mpr (by omega), by rw [Nat.sub_sub_self (by omega)]⟩
    rw [hpending] at hmem
    exact List.eq_of_mem_replicate hmem

/-! ### Form A and form B (R129) -/

/-- Four zero bits shifted into form B's register. -/
def fourZeros (c : Nibble) : Nibble := (List.replicate 4 false).foldl formBStep c

/-- Form A's register is form B's with four zero bits shifted in, at every bit. -/
theorem formAStep_fourZeros (c : Nibble) (b : Bool) : formAStep (fourZeros c) b = fourZeros (formBStep c b) := by
  revert c b
  decide

theorem formA_eq_formB (w : PromBuf) : formA w = formB w := by
  have hstart : fourZeros 0 = 0 := foldl_formBStep_zeros 4
  have hzeros : List.replicate 12 false = List.replicate 8 false ++ List.replicate 4 false := rfl
  calc formA w
      _ = (messageBits w ++ List.replicate 8 false).foldl formAStep (fourZeros 0) := by rw [hstart, formA]
      _ = fourZeros ((messageBits w ++ List.replicate 8 false).foldl formBStep 0) :=
        List.foldl_hom fourZeros formAStep_fourZeros
      _ = formB w := by rw [fourZeros, ← List.foldl_append, List.append_assoc, ← hzeros, formB]

/-- Settles O18: `crcRemainder_bits` gives form B and the low bits, `formA_eq_formB` form A. -/
theorem crcEqualsBothBitSerialForms : Obligations.CrcEqualsBothBitSerialForms := by
  unfold Obligations.CrcEqualsBothBitSerialForms
  intro w
  obtain ⟨htop, hlow⟩ := crcRemainder_bits w
  refine ⟨?_, htop.trans (formA_eq_formB w).symm, htop⟩
  ext i hi
  simp [hlow i hi]

/-! ### Single-bit flips (R130) -/

/-- Two messages of the same length that differ in exactly one bit. -/
inductive OneBitApart : List Bool → List Bool → Prop
  | head (b : Bool) (l : List Bool) : OneBitApart (b :: l) ((!b) :: l)
  | tail (b : Bool) {l l' : List Bool} : OneBitApart l l' → OneBitApart (b :: l) (b :: l')

theorem OneBitApart.append_right {l l' : List Bool} (h : OneBitApart l l') (m : List Bool) :
    OneBitApart (l ++ m) (l' ++ m) := by
  induction h with
  | head b l => exact .head b (l ++ m)
  | tail b _ ih => exact .tail b ih

theorem OneBitApart.append_left (m : List Bool) {l l' : List Bool} (h : OneBitApart l l') :
    OneBitApart (m ++ l) (m ++ l') := by
  induction m with
  | nil => exact h
  | cons b _ ih => exact .tail b ih

theorem oneBitApart_map {f g : Nat → Bool} {k : Nat} (hflip : g k = !f k) (hsame : ∀ m, m ≠ k → g m = f m)
    {l : List Nat} (hnodup : l.Nodup) (hmem : k ∈ l) : OneBitApart (l.map f) (l.map g) := by
  induction l with
  | nil => cases hmem
  | cons m l ih =>
    obtain ⟨hm, hl⟩ := List.nodup_cons.mp hnodup
    rw [List.map_cons, List.map_cons]
    by_cases h : m = k
    · subst h
      rw [hflip, List.map_congr_left fun x hx => hsame x (ne_of_mem_of_not_mem hx hm)]
      exact .head (f m) (l.map f)
    · rw [hsame m h]
      exact .tail (f m) (ih hl (List.mem_of_ne_of_mem (Ne.symm h) hmem))

theorem oneBitApart_wordBits (v : Word16) (j : Fin 16) : OneBitApart (wordBits v) (wordBits (v ^^^ BitVec.twoPow 16 j)) := by
  have hbits : ∀ u : Word16,
      wordBits u = [15, 14, 13, 12, 11, 10, 9, 8, 7, 6, 5, 4, 3, 2, 1, 0].map u.getLsbD := fun _ => rfl
  rw [hbits, hbits]
  refine oneBitApart_map (k := j) ?_ (fun m hm => ?_) (by decide) (by revert j; decide)
  · simp
  · simp [Ne.symm hm]

theorem formBStep_not_ne (c : Nibble) (b : Bool) : formBStep c b ≠ formBStep c !b := by
  revert c b
  decide

/-- Multiplication by x is injective modulo G, because the constant term of G is not zero (R130). -/
theorem formBStep_injective (b : Bool) : Function.Injective (formBStep · b) := by
  unfold Function.Injective
  revert b
  decide

theorem foldl_formBStep_injective (l : List Bool) : Function.Injective (l.foldl formBStep) := by
  induction l with
  | nil => exact Function.injective_id
  | cons b l ih => exact ih.comp (formBStep_injective b)

theorem OneBitApart.foldl_formBStep_ne {l l' : List Bool} (h : OneBitApart l l') (c : Nibble) :
    l.foldl formBStep c ≠ l'.foldl formBStep c := by
  induction h generalizing c with
  | head b l => exact (foldl_formBStep_injective l).ne (formBStep_not_ne c b)
  | tail b _ ih => exact ih (formBStep c b)

theorem crc4_ne_of_oneBitApart {w w' : PromBuf} (h : OneBitApart (messageBits w) (messageBits w')) : crc4 w ≠ crc4 w' := by
  obtain ⟨hw, -⟩ := crcRemainder_bits w
  obtain ⟨hw', -⟩ := crcRemainder_bits w'
  rw [hw, hw']
  exact (h.append_right _).foldl_formBStep_ne 0

/-! ### The flip in the block (R130) -/

theorem maskCrc_xor (u v : Word16) : maskCrc (u ^^^ v) = maskCrc u ^^^ maskCrc v := by
  ext i hi
  simp [maskCrc, Bool.and_xor_distrib_right]

theorem crcNibble_xor (u v : Word16) : crcNibble (u ^^^ v) = crcNibble u ^^^ crcNibble v := BitVec.extractLsb'_xor

/-- Bits 11:0 of word 0 are CRC input and no part of the CRC nibble (R121). -/
theorem lowBit_fields {j : Fin 16} (hj : j.val < 12) :
    maskCrc (BitVec.twoPow 16 j) = BitVec.twoPow 16 j ∧ crcNibble (BitVec.twoPow 16 j) = 0#4 := by
  revert j
  decide

/-- Bits 15:12 of word 0 are the CRC nibble and no CRC input (R121). -/
theorem highBit_fields {j : Fin 16} (hj : 12 ≤ j.val) :
    maskCrc (BitVec.twoPow 16 j) = 0#16 ∧ crcNibble (BitVec.twoPow 16 j) ≠ 0#4 := by
  revert j
  decide

/-- A flip in `W[0][11:0]` or in `W[1]` to `W[6]` flips one message bit. -/
theorem oneBitApart_messageBits_flipBit (w : PromBuf) (j : Fin 16) :
    ∀ i : Fin 7, i ≠ 0 ∨ j.val < 12 → OneBitApart (messageBits w) (messageBits (flipBit w i j))
  | 0, h => by
    obtain ⟨hmask, -⟩ := lowBit_fields (h.resolve_left (absurd rfl))
    have hmasked := oneBitApart_wordBits (maskCrc w.w0) j
    rw [← hmask, ← maskCrc_xor] at hmasked
    exact (((((hmasked.append_right _).append_right _).append_right _).append_right _).append_right _).append_right _
  | 1, _ => ((((((oneBitApart_wordBits w.w1 j).append_left _).append_right _).append_right _).append_right
      _).append_right _).append_right _
  | 2, _ => (((((oneBitApart_wordBits w.w2 j).append_left _).append_right _).append_right _).append_right _).append_right _
  | 3, _ => ((((oneBitApart_wordBits w.w3 j).append_left _).append_right _).append_right _).append_right _
  | 4, _ => (((oneBitApart_wordBits w.w4 j).append_left _).append_right _).append_right _
  | 5, _ => ((oneBitApart_wordBits w.w5 j).append_left _).append_right _
  | 6, _ => (oneBitApart_wordBits w.w6 j).append_left _

/-- A flip of a message bit leaves the CRC nibble of word 0 as it is. -/
theorem crcNibble_flipBit (w : PromBuf) {i : Fin 7} {j : Fin 16} (h : i ≠ 0 ∨ j.val < 12) :
    crcNibble (flipBit w i j).w0 = crcNibble w.w0 := by
  by_cases hi : i = 0
  · subst hi
    obtain ⟨-, hnibble⟩ := lowBit_fields (h.resolve_left (absurd rfl))
    have hxor := crcNibble_xor w.w0 (BitVec.twoPow 16 j)
    rwa [hnibble, BitVec.xor_zero] at hxor
  · have hother : bufIndex i ≠ 0 := by simpa [bufIndex] using hi
    exact congrArg crcNibble (PromBuf.get_set_of_ne w _ hother)

/-- A flip of a bit of the CRC nibble changes the expected CRC and leaves the computed one as it is (R130). -/
theorem flipBit_crcNibble (w : PromBuf) {j : Fin 16} (hj : 12 ≤ j.val) :
    crc4 (flipBit w 0 j) = crc4 w ∧ crcNibble (flipBit w 0 j).w0 ≠ crcNibble w.w0 := by
  obtain ⟨hmask, hnibble⟩ := highBit_fields hj
  have hmasked : maskCrc (flipBit w 0 j).w0 = maskCrc w.w0 := by
    have hxor := maskCrc_xor w.w0 (BitVec.twoPow 16 j)
    rwa [hmask, BitVec.xor_zero] at hxor
  have hinput : crcInput (flipBit w 0 j) = crcInput w := congrArg (fun v => { w with w0 := v, w7 := 0 }) hmasked
  have hxor : crcNibble (flipBit w 0 j).w0 = crcNibble w.w0 ^^^ crcNibble (BitVec.twoPow 16 j) := crcNibble_xor _ _
  exact ⟨by rw [crc4, crcRemainder, hinput, ← crcRemainder, ← crc4], by simpa [hxor] using hnibble⟩

/-- Settles O19: a flip changes either the computed CRC or the expected one, and not both. -/
theorem everySingleBitFlipIsDetected : Obligations.EverySingleBitFlipIsDetected := by
  unfold Obligations.EverySingleBitFlipIsDetected passes
  intro w i j hpass hflip
  by_cases h : i ≠ 0 ∨ j.val < 12
  · have hcrc := crc4_ne_of_oneBitApart (oneBitApart_messageBits_flipBit w j i h)
    exact hcrc (by rw [hpass, hflip, crcNibble_flipBit w h])
  · obtain ⟨rfl, hj⟩ : i = 0 ∧ 12 ≤ j.val := by simpa using h
    obtain ⟨hcrc, hnibble⟩ := flipBit_crcNibble w hj
    exact hnibble (by rw [← hflip, hcrc, hpass])

/-! ### CRC4.CHK (R124 to R126) and its table (R131) -/

/-- R124 to R126: what CRC4.CHK leads to. No collaborator call is among its events, so nothing can hang. -/
theorem exec_crc4Chk (expd : Nibble) (s : State) :
    exec (.crc4Chk expd) s = .next ((crcCheck expd s).returning (crcCheck expd s).crcOk) :=
  exec_of_no_event trivial rfl

/-- Settles O21: `exec_crc4Chk`, with the computed CRC in form A by O18. -/
theorem crcCheckEffect : Obligations.CrcCheckEffect := by
  unfold Obligations.CrcCheckEffect
  intro expd s
  obtain ⟨-, hformA, -⟩ := crcEqualsBothBitSerialForms s.w
  refine ⟨crcRegsAfter s.w expd, hformA, rfl, rfl, ?_⟩
  rw [exec_crc4Chk, ← hformA, ← beq_eq_decide]
  rfl

/-- What W[7] held does not matter, for the check forces it to zero (R121, R126). -/
theorem crcCheck_of_w7 (expd : Nibble) (s : State) (v : Word16) :
    crcCheck expd { s with w := { s.w with w7 := v } } = crcCheck expd s := rfl

/-- A second check finds the buffer but for W[7] as the first one found it, and writes the same (R127). -/
theorem crcCheck_returning_crcCheck (expd : Nibble) (s : State) (b : Bool) :
    crcCheck expd ((crcCheck expd s).returning b) = (crcCheck expd s).returning b := rfl

/-- Settles O22: `exec_crc4Chk` three times, the second time on what the first left, the third with another W[7]. -/
theorem crcCheckIsIdempotent : Obligations.CrcCheckIsIdempotent := by
  unfold Obligations.CrcCheckIsIdempotent
  intro expd s v
  refine ⟨_, exec_crc4Chk expd s, ?_, ?_, rfl⟩
  · rw [exec_crc4Chk, crcCheck_returning_crcCheck]
    rfl
  · rw [exec_crc4Chk, crcCheck_of_w7]

/-- A row of the table of R131 is fixed by the block's final remainder. -/
theorem crcRow_of_remainder {w : PromBuf} {remainder : Word16} (h : crcRemainder w = remainder) :
    crcRow w remainder (remainder.extractLsb' 12 4) (crcNibble w.w0) (remainder.extractLsb' 12 4 == crcNibble w.w0) := by
  subst h
  exact ⟨rfl, rfl, rfl, rfl⟩

/-- Settles O20: the final remainder of each block, by `crcRow_of_remainder`. -/
theorem crcCornerCases : Obligations.CrcCornerCases := by
  unfold Obligations.CrcCornerCases
  refine ⟨?_, ?_, ?_, ?_, ?_, ?_, ?_, ?_, ?_⟩ <;> exact crcRow_of_remainder (by decide +kernel)

end Sys2Proof.Machine

/-!
The calibration loader (spec/41_calibration_loader.md). Seven good reads are said once, up to the check
(`checkProm_promReads_script`); a block that passes and one that does not then differ by `promLoad_of_match` and
`promLoad_of_mismatch`. For any environment the events come from `promReads_events`.
-/

namespace Sys2Proof.Machine

open Sys2Proof.Safety

/-! ### Seven good reads (R141, R143) -/

/-- R37, R141: the reads begin with STATUS = 1, and it is still 1 when none of them failed. -/
theorem promReads_startStatus_script {s : State} {b : PromBuf} {rest : List Answer}
    (h : s.env = .script (promAnswers b ++ rest)) :
    promReads promIndices s.startStatus = { s with
      w := { b with w7 := s.w.w7 }
      status := true
      env := .script rest
      txn := s.txn + 7
      trace := s.trace ++ promEvents s b } :=
  promReads_script (s := s.startStatus) h

/-- R143, R144: the check after seven good reads of the words of `b`, whatever it finds. -/
theorem checkProm_promReads_script {s : State} {b : PromBuf} {rest : List Answer}
    (h : s.env = .script (promAnswers b ++ rest)) :
    checkProm (promReads promIndices s.startStatus) = { s with
      w := { b with w7 := 0 }
      crcn := crcNibble b.w0
      crc := crcRegsAfter b (crcNibble b.w0)
      crcOk := crc4 b == crcNibble b.w0
      status := true
      env := .script rest
      txn := s.txn + 7
      trace := s.trace ++ promEvents s b } := by
  rw [promReads_startStatus_script h]
  rfl

/-- R146: the commit follows the check of a block that passes. -/
theorem promLoad_script_of_passes {s : State} {b : PromBuf} {rest : List Answer}
    (h : s.env = .script (promAnswers b ++ rest)) (hb : passes b) :
    promLoad s = commitCalibration (checkProm (promReads promIndices s.startStatus)) := by
  have hr := promReads_startStatus_script h
  exact promLoad_of_match (by rw [hr]) (by rw [hr]; exact hb)

/-- R145: after the check of a block that does not pass nothing more is written. -/
theorem promLoad_script_of_not_passes {s : State} {b : PromBuf} {rest : List Answer}
    (h : s.env = .script (promAnswers b ++ rest)) (hb : ¬ passes b) :
    promLoad s = checkProm (promReads promIndices s.startStatus) := by
  have hr := promReads_startStatus_script h
  exact promLoad_of_mismatch (by rw [hr]) (by rw [hr]; exact hb)

/-! ### PROM.LOAD (R143 to R148) -/

/-- PROM.LOAD ends in the loader's state with its success returned (R140). -/
theorem exec_promLoad {s : State} (hhang : s.hangAt = none) :
    exec .promLoad s = .next ((promLoad s).returning (promLoad s).loadOk) :=
  exec_completes (i := .promLoad) trivial hhang

/-- Settles O23: the check of seven good reads, CRC_OK = 1 as the block passes, and the commit. CNT and NBIT stand
where their loops end (log 16). -/
theorem promLoadCommitsAPassingBlock : Obligations.PromLoadCommitsAPassingBlock := by
  unfold Obligations.PromLoadCommitsAPassingBlock
  intro s b rest hhang henv hb
  have hok : (crc4 b == crcNibble b.w0) = true := beq_iff_eq.mpr hb
  refine ⟨15, 1, ?_⟩
  rw [exec_promLoad hhang, promLoad_script_of_passes henv hb, checkProm_promReads_script henv, hok]
  rfl

/-- Settles O24: the check of seven good reads, CRC_OK = 0 as the block does not pass, and no commit. -/
theorem promLoadRejectsACorruptBlock : Obligations.PromLoadRejectsACorruptBlock := by
  unfold Obligations.PromLoadRejectsACorruptBlock
  intro s b rest hhang henv hb
  have hok : (crc4 b == crcNibble b.w0) = false := beq_eq_false_iff_ne.mpr hb
  refine ⟨15, 1, ?_⟩
  rw [exec_promLoad hhang, promLoad_script_of_not_passes henv hb, checkProm_promReads_script henv, hok]
  rfl

/-- R142, R148: after a failed read PROM.LOAD returns false, the validator has not run, and of the registers only W[0..6] and
STATUS are written. -/
theorem promLoad_returning_of_failed_read {s : State} (h : (promReads promIndices s.startStatus).status = false) :
    (promLoad s).returning (promLoad s).loadOk = { s with
      w := { (promLoad s).w with w7 := s.w.w7 }
      status := false
      ret := some false
      env := (promLoad s).env
      txn := (promLoad s).txn
      trace := (promLoad s).trace } := by
  have hw7 : (promReads promIndices s.startStatus).w.w7 = s.w.w7 := promReads_w7 promIndices s.startStatus
  rw [promLoad_of_failed_read h, State.loadOk, h, Bool.false_and, ← hw7]
  conv_lhs => rw [promReads_eq, h]
  rfl

/-- Settles O25: the events are those of the reads (`promReads_events`), and one of them failed exactly when the reads left
STATUS = 0. -/
theorem promLoadFailsOnAnyFailedRead : Obligations.PromLoadFailsOnAnyFailedRead := by
  unfold Obligations.PromLoadFailsOnAnyFailedRead
  intro s hhang
  obtain ⟨evs, htrace, hasks, hstatus, habort, hlength⟩ := promReads_events promIndices s.startStatus
  refine ⟨_, exec_promLoad hhang, ?_⟩
  have hnew : newEvents s ((promLoad s).returning (promLoad s).loadOk) = evs := by
    rw [newEvents, State.returning_trace, promLoad_trace, htrace]
    exact List.drop_left
  rw [hnew, promAsks_eq]
  refine ⟨hasks, habort, hlength, fun ⟨e, he, hfail⟩ => promLoad_returning_of_failed_read ?_⟩
  have hall : evs.all (fun e => !failed e) = false :=
    List.all_eq_false.mpr ⟨e, he, by simp [hfail]⟩
  rw [hstatus, hall, Bool.and_false]

end Sys2Proof.Machine

/-!
The conversion sequencer (spec/42_conversion_sequencer.md). Against a script the whole cycle is `convCycle_script`. For any
environment the six states are chained through `Asked`, which says at once what a move asks for and what the answers leave
in STATUS; MEASURE makes the events of its cycle and no others.
-/

namespace Sys2Proof.Machine

open Sys2Proof.Safety

/-! ### The bus operations of the cycle (R157, R159, R162), and the reset command (R166) -/

/-- Settles O12: a conversion start is one transaction and one move; the byte in unbounded numbers is `convByte_eq`. -/
theorem conversionStartsSendOneCommand : Obligations.ConversionStartsSendOneCommand := by
  unfold Obligations.ConversionStartsSendOneCommand
  intro s hhang
  simp only [← convByte_eq]
  exact ⟨exec_completes (i := .cmdConvT) trivial hhang, exec_completes (i := .cmdConvP) trivial hhang⟩

/-- R159, R66: an ADC read is one transaction, and its destination takes the three bytes big-endian, whatever the flag. -/
theorem adcRead_of_data {s : State} {a b c : Byte} (hdata : (busAnswer (adcRequest s) s).data = [a, b, c]) (dest : Channel) :
    adcRead dest s = (transact (adcRequest s) s).latchRaw dest (threeBytes a b c) := by
  rw [adcRead, hdata, adcWord_triple, threeBytes]

/-- Settles O13: the answer has three bytes, and either destination latches them (`adcRead_of_data`). -/
theorem adcReadLatchesThreeBytes : Obligations.AdcReadLatchesThreeBytes := by
  unfold Obligations.AdcReadLatchesThreeBytes
  intro s hhang
  obtain ⟨a, b, c, hdata⟩ := list_three (busAnswer_length (adcRequest s) s)
  have hread (dest : Channel) :
      exec (.cmdAdcrd dest) s = .next ((transact (adcRequest s) s).latchRaw dest (threeBytes a b c)) := by
    rw [← adcRead_of_data hdata]
    exact exec_completes trivial hhang
  exact ⟨a, b, c, hdata, hread .temperature, hread .pressure⟩

/-- R227: RESET is the reset command. What its acceptance writes, STATUS and SEQ, the command writes again. -/
theorem resetCommand_resetStart (s : State) : resetCommand (resetStart s) = resetCommand s := by
  rw [resetCommand_eq, resetCommand_eq s]
  rfl

/-- Settles O16: both operations end in the state `resetCommand_eq` gives. -/
theorem resetSendsOneCommandAndChangesNothingElse : Obligations.ResetSendsOneCommandAndChangesNothingElse := by
  unfold Obligations.ResetSendsOneCommandAndChangesNothingElse
  intro s hhang
  dsimp only
  rw [← resetCommand_eq]
  refine ⟨exec_completes (i := .cmdReset) trivial hhang, fun hidle hopen => ?_⟩
  rw [← resetCommand_resetStart]
  exact exec_completes (i := .reset) ⟨hidle, hopen⟩ hhang

/-! ### The whole cycle (R155, R165, R167) -/

/-- R167: CONV.SEQ ends in the cycle's state with STATUS returned. -/
theorem exec_convSeq {s : State} (hhang : s.hangAt = none) :
    exec .convSeq s = .next ((convCycle s).returning (convCycle s).status) :=
  exec_completes (i := .convSeq) trivial hhang

/-- Settles O26: `convCycle_script`, with the raw values as numbers. -/
theorem convSeqRunsBothPhases : Obligations.ConvSeqRunsBothPhases := by
  unfold Obligations.ConvSeqRunsBothPhases
  intro s ok1 ok2 ok3 ok4 a b c d e f rest hhang henv
  rw [exec_convSeq hhang, convCycle_script henv, adcWord_triple, adcWord_triple]
  rfl

/-- From `s` to `t` the block asked for exactly `asks`, in this order, and STATUS was and-ed with the flag of each transaction
among them (R37). -/
def Asked (asks : List Ask) (s t : State) : Prop :=
  ∃ evs, t.trace = s.trace ++ evs ∧ evs.map askOf = asks ∧ t.status = (s.status && evs.all fun e => !failed e)

theorem Asked.trans {asks asks' : List Ask} {s t u : State} (h : Asked asks s t) (h' : Asked asks' t u) :
    Asked (asks ++ asks') s u := by
  obtain ⟨evs, htrace, rfl, hstatus⟩ := h
  obtain ⟨evs', htrace', rfl, hstatus'⟩ := h'
  refine ⟨evs ++ evs', ?_, List.map_append, ?_⟩
  · rw [htrace', htrace, List.append_assoc]
  · rw [hstatus', hstatus, List.all_append, Bool.and_assoc]

/-- Where SEQ goes asks for nothing. -/
theorem Asked.goto {asks : List Ask} {s t : State} (h : Asked asks s t) (q : SeqState) : Asked asks s (t.goto q) := h

theorem asked_transact (r : Request) (s : State) : Asked [.transaction r] s (transact r s) :=
  ⟨[.txn r (busAnswer r s)], rfl, rfl, by simp [failed]⟩

theorem asked_delay (ms : Nat) (s : State) : Asked [.delay ms] s (delay ms s) :=
  ⟨[.delay ms], rfl, rfl, by simp [failed]⟩

theorem asked_adcRead (dest : Channel) (s : State) : Asked [.transaction (adcRequest s)] s (adcRead dest s) := by
  obtain ⟨evs, htrace, hasks, hstatus⟩ := asked_transact (adcRequest s) s
  exact ⟨evs, (latchRaw_trace _ dest _).trans htrace, hasks, (latchRaw_status _ dest _).trans hstatus⟩

/-- R157, R158, R160: the temperature phase. -/
theorem asked_temperaturePhase (s : State) :
    Asked [.transaction (.busWrite (convTByte s)), .delay settleMs, .transaction (adcRequest s)]
      s (readT (waitT (convStartT s))) := by
  have hstart : Asked _ s (convStartT s) := (asked_transact (.busWrite (convTByte s)) s).goto .meaTWait
  have hwait (u : State) : Asked _ u (waitT u) := (asked_delay settleMs u).goto .meaTRead
  have hread (u : State) : Asked _ u (readT u) := (asked_adcRead .temperature u).goto .meaPStart
  exact (hstart.trans (hwait _)).trans (hread _)

/-- R162 to R164: the pressure phase. -/
theorem asked_pressurePhase (s : State) :
    Asked [.transaction (.busWrite (convPByte s)), .delay settleMs, .transaction (adcRequest s)]
      s (readP (waitP (convStartP s))) := by
  have hstart : Asked _ s (convStartP s) := (asked_transact (.busWrite (convPByte s)) s).goto .meaPWait
  have hwait (u : State) : Asked _ u (waitP u) := (asked_delay settleMs u).goto .meaPRead
  have hread (u : State) : Asked _ u (readP u) := (asked_adcRead .pressure u).goto _
  exact (hstart.trans (hwait _)).trans (hread _)

/-- The temperature phase leaves OSR and the parameters alone, and with them the requests of the pressure phase (R93, R95). -/
theorem temperaturePhase_keeps_requests (s : State) :
    convPByte (readT (waitT (convStartT s))) = convPByte s ∧ adcRequest (readT (waitT (convStartT s))) = adcRequest s := by
  simp [convPByte, adcRequest, readT, waitT, convStartT, adcRead]

/-- R155, R165: whoever answers, the cycle asks for its six events, the pressure phase whatever the temperature phase met, and
STATUS, which starts at 1, tells whether none failed. -/
theorem asked_convCycle (s : State) : Asked (measureAsks s) s.startStatus (convCycle s) := by
  obtain ⟨hbyte, hrequest⟩ := temperaturePhase_keeps_requests s.startStatus
  have hpressure := asked_pressurePhase (readT (waitT (convStartT s.startStatus)))
  rw [hbyte, hrequest] at hpressure
  rw [measureAsks_eq]
  exact (asked_temperaturePhase s.startStatus).trans hpressure

theorem newEvents_of_trace {evs : List Event} {s t : State} (h : t.trace = s.trace ++ evs) : newEvents s t = evs := by
  rw [newEvents, h, List.drop_left]

/-- Settles O27: the events and STATUS are `asked_convCycle`, the frame is `convCycle_eq`. -/
theorem convSeqHasSixEvents : Obligations.ConvSeqHasSixEvents := by
  unfold Obligations.ConvSeqHasSixEvents
  intro s hhang
  obtain ⟨evs, htrace, hasks, hstatus⟩ := asked_convCycle s
  have hnew : newEvents s ((convCycle s).returning (convCycle s).status) = evs := newEvents_of_trace htrace
  refine ⟨_, exec_convSeq hhang, ?_⟩
  rw [hnew]
  refine ⟨htrace, hasks, hstatus, ?_⟩
  conv_lhs => rw [convCycle_eq]
  rfl

/-! ### The cycle inside MEASURE (R228, R237) -/

/-- R165: four transactions in every cycle. -/
theorem convCycle_txn (s : State) : (convCycle s).txn = s.txn + 4 := rfl

/-- R228: neither the commit, the records nor the failure exit asks for a transaction. -/
theorem measure_txn (p t : Bool) (s : State) : (measure p t s).txn = s.txn + 4 := by
  rw [measure_eq]
  split
  · rw [commitAndFill_eq]
    exact convCycle_txn (measureStart p t s)
  · exact convCycle_txn (measureStart p t s)

/-- Settles O47: MEASURE makes the events of its cycle (`measure_trace`), and the want flags, which its entry latches, are in
none of their requests. -/
theorem measureAlwaysMakesSixEvents : Obligations.MeasureAlwaysMakesSixEvents := by
  unfold Obligations.MeasureAlwaysMakesSixEvents
  rintro s p t h ⟨hidle, hhang⟩ hinit
  obtain ⟨evs, hcycle, hasks, -⟩ := asked_convCycle (measureStart p t s)
  have htrace : (measure p t s).trace = s.trace ++ evs := (measure_trace p t s).trans hcycle
  refine ⟨_, exec_completes (i := .measure p t h) ⟨hidle, hinit⟩ hhang, ?_⟩
  rw [effect, newEvents_of_trace htrace]
  exact ⟨htrace, hasks, measure_txn p t s⟩

end Sys2Proof.Machine

/-!
The compensation engine (spec/43_compensation_engine.md). Each stage is named once on integers (`intPipeline_eq`), its bounds
are said there (R194), and they are what makes the s64 stage exact (R176): a stage's `_toInt` lemma takes the bounds of the
values it reads and gives the integer stage.
-/

namespace Sys2Proof.Machine

open Sys2Proof.Safety

/-! ### The stages on integers (R179 to R191) -/

/-- Stage 1 on integers (R179). -/
def intDT (dRawT c5 : Int) : Int := dRawT - c5 * 256

/-- Stage 2 on integers (R180). -/
def intTemp (dT c6 : Int) : Int := 2000 + dT * c6 / 2 ^ 23

/-- T2 on integers (R183, R184). -/
def intT2 (dT temp : Int) : Int := if 2000 ≤ temp then 5 * dT ^ 2 / 2 ^ 38 else 3 * dT ^ 2 / 2 ^ 33

/-- A second-order correction on integers (R183 to R185). -/
def intCorrection (low veryLowFactor temp : Int) : Int :=
  if 2000 ≤ temp then 0
  else low * (temp - 2000) ^ 2 / 16 + (if temp < -1500 then veryLowFactor * (temp + 1500) ^ 2 else 0)

/-- Stage 4 on integers (R188). -/
def intOff (dT off2 c2 c4 : Int) : Int := c2 * 2 ^ 17 + c4 * dT / 2 ^ 6 - off2

/-- Stage 5 on integers (R189). -/
def intSens (dT sens2 c1 c3 : Int) : Int := c1 * 2 ^ 16 + c3 * dT / 2 ^ 7 - sens2

/-- Stage 6 on integers (R190). -/
def intP (dRawP sens off : Int) : Int := (dRawP * sens / 2 ^ 21 - off) / 2 ^ 15

/-- The integer pipeline is its stages, each on the results before it (R193). -/
theorem intPipeline_eq (dRawT dRawP c1 c2 c3 c4 c5 c6 : Int) :
    intPipeline dRawT dRawP c1 c2 c3 c4 c5 c6 =
      let dT := intDT dRawT c5
      let temp := intTemp dT c6
      let off2 := intCorrection 61 17 temp
      let sens2 := intCorrection 29 9 temp
      let off := intOff dT off2 c2 c4
      let sens := intSens dT sens2 c1 c3
      ⟨dT, temp, intT2 dT temp, off2, sens2, off, sens, intP dRawP sens off, temp - intT2 dT temp⟩ := rfl

theorem intT2_of_high {temp : Int} (dT : Int) (h : 2000 ≤ temp) : intT2 dT temp = 5 * dT ^ 2 / 2 ^ 38 := if_pos h

theorem intT2_of_low {temp : Int} (dT : Int) (h : temp < 2000) : intT2 dT temp = 3 * dT ^ 2 / 2 ^ 33 := if_neg h.not_ge

theorem intCorrection_of_high {temp : Int} (low veryLowFactor : Int) (h : 2000 ≤ temp) :
    intCorrection low veryLowFactor temp = 0 := if_pos h

theorem intCorrection_of_low {temp : Int} (low veryLowFactor : Int) (h : temp < 2000) (h' : -1500 ≤ temp) :
    intCorrection low veryLowFactor temp = low * (temp - 2000) ^ 2 / 16 := by
  rw [intCorrection, if_neg h.not_ge, if_neg h'.not_gt, add_zero]

theorem intCorrection_of_veryLow {temp : Int} (low veryLowFactor : Int) (h : temp < -1500) :
    intCorrection low veryLowFactor temp = low * (temp - 2000) ^ 2 / 16 + veryLowFactor * (temp + 1500) ^ 2 := by
  rw [intCorrection, if_neg (by omega), if_pos h]

/-! ### The bounds of the integer stages (R194) -/

theorem abs_toNat_lt {w : Nat} (v : BitVec w) : |(v.toNat : Int)| < 2 ^ w := by
  rw [abs_of_nonneg (Int.natCast_nonneg _)]
  exact_mod_cast v.isLt

theorem abs_intDT_lt (dRawT : Raw24) (c5 : Word16) : |intDT dRawT.toNat c5.toNat| < 2 ^ 24 := by
  have hd := dRawT.isLt
  have hc := c5.isLt
  rw [abs_lt, intDT]
  omega

/-- The product of dT with a coefficient (R180, R188, R189). -/
theorem abs_coef_mul_lt {dT : Int} (hdT : |dT| < 2 ^ 24) (v : Word16) : |(v.toNat : Int) * dT| < 2 ^ 40 :=
  (abs_mul _ _).trans_lt (mul_lt_mul'' (abs_toNat_lt v) hdT (abs_nonneg _) (abs_nonneg _))

theorem sq_dT_lt {dT : Int} (hdT : |dT| < 2 ^ 24) : dT ^ 2 < 2 ^ 48 := by
  simpa using sq_lt_sq' (abs_lt.mp hdT).1 (abs_lt.mp hdT).2

/-- Everything that is known of TEMP, and what the bounds of the corrections use: it lies near 2000. -/
theorem abs_intTemp_sub_le {dT : Int} (hdT : |dT| < 2 ^ 24) (c6 : Word16) : |intTemp dT c6.toNat - 2000| ≤ 2 ^ 17 := by
  have hmul := abs_lt.mp (mul_comm dT _ ▸ abs_coef_mul_lt hdT c6 : |dT * (c6.toNat : Int)| < 2 ^ 40)
  rw [abs_le, intTemp]
  omega

theorem intT2_bounds {dT : Int} (hdT : |dT| < 2 ^ 24) (temp : Int) : 0 ≤ intT2 dT temp ∧ intT2 dT temp < 2 ^ 17 := by
  have hlt := sq_dT_lt hdT
  have hnonneg := sq_nonneg dT
  rw [intT2]
  split <;> omega

theorem sq_temp_sub_le {temp : Int} (htemp : |temp - 2000| ≤ 2 ^ 17) : (temp - 2000) ^ 2 ≤ 2 ^ 34 := by
  simpa using sq_le_sq' (abs_le.mp htemp).1 (abs_le.mp htemp).2

theorem sq_temp_add_lt {temp : Int} (htemp : |temp - 2000| ≤ 2 ^ 17) (h : temp < -1500) : (temp + 1500) ^ 2 < 2 ^ 34 := by
  obtain ⟨hlow, -⟩ := abs_le.mp htemp
  have hsq := sq_lt_sq' (a := temp + 1500) (b := 2 ^ 17) (by omega) (by omega)
  simpa using hsq

theorem intCorrection_bounds {low veryLowFactor temp : Int} (hlow : 0 ≤ low) (hfactor : 0 ≤ veryLowFactor)
    (htemp : |temp - 2000| ≤ 2 ^ 17) :
    0 ≤ intCorrection low veryLowFactor temp ∧
      intCorrection low veryLowFactor temp ≤ low * 2 ^ 30 + veryLowFactor * 2 ^ 34 := by
  have hbase : low * (temp - 2000) ^ 2 ≤ low * 2 ^ 34 := mul_le_mul_of_nonneg_left (sq_temp_sub_le htemp) hlow
  have hbase' : 0 ≤ low * (temp - 2000) ^ 2 := mul_nonneg hlow (sq_nonneg _)
  rcases le_or_gt 2000 temp with h | h
  · rw [intCorrection_of_high _ _ h]
    omega
  rcases le_or_gt (-1500) temp with h' | h'
  · rw [intCorrection_of_low _ _ h h']
    omega
  · have hextra : veryLowFactor * (temp + 1500) ^ 2 ≤ veryLowFactor * 2 ^ 34 :=
      mul_le_mul_of_nonneg_left (sq_temp_add_lt htemp h').le hfactor
    have hextra' : 0 ≤ veryLowFactor * (temp + 1500) ^ 2 := mul_nonneg hfactor (sq_nonneg _)
    rw [intCorrection_of_veryLow _ _ h']
    omega

theorem intOff2_bounds {temp : Int} (htemp : |temp - 2000| ≤ 2 ^ 17) :
    0 ≤ intCorrection 61 17 temp ∧ intCorrection 61 17 temp < 2 ^ 39 :=
  (intCorrection_bounds (by decide) (by decide) htemp).imp_right (·.trans_lt (by norm_num))

/-- R194 has `2 ^ 38`; the bound of SENS needs the room that is left to it. -/
theorem intSens2_bounds {temp : Int} (htemp : |temp - 2000| ≤ 2 ^ 17) :
    0 ≤ intCorrection 29 9 temp ∧ intCorrection 29 9 temp < 2 ^ 38 - 2 ^ 34 :=
  (intCorrection_bounds (by decide) (by decide) htemp).imp_right (·.trans_lt (by norm_num))

theorem abs_intOff_lt {dT temp : Int} (hdT : |dT| < 2 ^ 24) (htemp : |temp - 2000| ≤ 2 ^ 17) (c2 c4 : Word16) :
    |intOff dT (intCorrection 61 17 temp) c2.toNat c4.toNat| < 2 ^ 40 := by
  have hmul := abs_lt.mp (abs_coef_mul_lt hdT c4)
  have hoff2 := intOff2_bounds htemp
  have hc := c2.isLt
  rw [abs_lt, intOff]
  omega

theorem abs_intSens_lt {dT temp : Int} (hdT : |dT| < 2 ^ 24) (htemp : |temp - 2000| ≤ 2 ^ 17) (c1 c3 : Word16) :
    |intSens dT (intCorrection 29 9 temp) c1.toNat c3.toNat| < 2 ^ 38 := by
  have hmul := abs_lt.mp (abs_coef_mul_lt hdT c3)
  have hsens2 := intSens2_bounds htemp
  have hc := c1.isLt
  rw [abs_lt, intSens]
  omega

/-- R190: the largest values of both factors, so that the quotient, rounded down, is still above `-2 ^ 41`. -/
theorem abs_raw_mul_sens_le {sens : Int} (hsens : |sens| < 2 ^ 38) (dRawP : Raw24) :
    |(dRawP.toNat : Int) * sens| ≤ (2 ^ 24 - 1) * (2 ^ 38 - 1) := by
  rw [abs_mul]
  exact mul_le_mul (Int.le_sub_one_of_lt (abs_toNat_lt dRawP)) (Int.le_sub_one_of_lt hsens) (abs_nonneg _) (by norm_num)

theorem abs_raw_mul_sens_lt {sens : Int} (hsens : |sens| < 2 ^ 38) (dRawP : Raw24) : |(dRawP.toNat : Int) * sens| < 2 ^ 62 :=
  (abs_raw_mul_sens_le hsens dRawP).trans_lt (by norm_num)

theorem abs_raw_mul_sens_div_lt {sens : Int} (hsens : |sens| < 2 ^ 38) (dRawP : Raw24) :
    |(dRawP.toNat : Int) * sens / 2 ^ 21| < 2 ^ 41 := by
  have hmul := abs_le.mp (abs_raw_mul_sens_le hsens dRawP)
  rw [abs_lt]
  omega

theorem abs_intP_lt {sens off : Int} (hsens : |sens| < 2 ^ 38) (hoff : |off| < 2 ^ 40) (dRawP : Raw24) :
    |intP dRawP.toNat sens off| < 2 ^ 27 := by
  have hterm := abs_lt.mp (abs_raw_mul_sens_div_lt hsens dRawP)
  have hoff := abs_lt.mp hoff
  rw [abs_lt, intP]
  omega

/-- Settles O30, stage by stage. -/
theorem pipelineStaysInsideItsBounds : Obligations.PipelineStaysInsideItsBounds := by
  unfold Obligations.PipelineStaysInsideItsBounds
  intro dRawT dRawP c
  rw [intPipeline_eq]
  dsimp only
  have hdT := abs_intDT_lt dRawT c.c5
  generalize intDT dRawT.toNat c.c5.toNat = dT at hdT ⊢
  have htemp := abs_intTemp_sub_le hdT c.c6
  have hdT6 := mul_comm dT _ ▸ abs_coef_mul_lt hdT c.c6
  generalize intTemp dT c.c6.toNat = temp at htemp ⊢
  have hsq := sq_dT_lt hdT
  have hsqTemp := sq_temp_sub_le htemp
  have ht2 := intT2_bounds hdT temp
  have htempAbs := abs_le.mp htemp
  have hoff2 := intOff2_bounds htemp
  have hsens2 := intSens2_bounds htemp
  have hoff := abs_intOff_lt hdT htemp c.c2 c.c4
  have hsens := abs_intSens_lt hdT htemp c.c1 c.c3
  have hc1 := c.c1.isLt
  have hc2 := c.c2.isLt
  refine ⟨hdT, hdT6, abs_lt.mpr (by omega), ht2.1, ht2.2, hoff2.1, by omega, hsens2.1, by omega, hoff, hsens,
    abs_raw_mul_sens_lt hsens dRawP, abs_intP_lt hsens hoff dRawP, abs_lt.mpr (by omega), hsq, by omega, by omega,
    by omega, by omega, fun h => ?_, by omega, abs_coef_mul_lt hdT c.c4, by omega, abs_coef_mul_lt hdT c.c3,
    abs_raw_mul_sens_div_lt hsens dRawP⟩
  have hsqAdd := sq_temp_add_lt htemp h
  omega

/-! ### Exact s64 operations (R176 to R178) -/

/-- An integer inside the range of an s64 is not reduced. -/
theorem bmod_s64_of_abs_lt {x : Int} (h : |x| < 2 ^ 63) : x.bmod (2 ^ 64) = x := by
  obtain ⟨hlow, hhigh⟩ := abs_lt.mp h
  exact Int.bmod_eq_of_le_mul_two (by omega) (by omega)

theorem toInt_add_of_abs_lt {a b : S64} (h : |a.toInt + b.toInt| < 2 ^ 63) : (a + b).toInt = a.toInt + b.toInt := by
  rw [BitVec.toInt_add, bmod_s64_of_abs_lt h]

theorem toInt_sub_of_abs_lt {a b : S64} (h : |a.toInt - b.toInt| < 2 ^ 63) : (a - b).toInt = a.toInt - b.toInt := by
  rw [BitVec.toInt_sub, bmod_s64_of_abs_lt h]

theorem toInt_mul_of_abs_lt {a b : S64} (h : |a.toInt * b.toInt| < 2 ^ 63) : (a * b).toInt = a.toInt * b.toInt := by
  rw [BitVec.toInt_mul, bmod_s64_of_abs_lt h]

/-- R177: the arithmetic shift is the division that rounds down. -/
theorem shr_toInt (a : S64) (n : Nat) : (shr a n).toInt = a.toInt / 2 ^ n := by
  rw [shr, BitVec.toInt_sshiftRight, Int.shiftRight_eq_div_pow, Nat.cast_pow, Nat.cast_ofNat]

/-- R178: of a value that is not negative. -/
theorem div16_toInt {a : S64} (h : 0 ≤ a.toInt) : (div16 a).toInt = a.toInt / 16 := by
  rw [div16, BitVec.toInt_sdiv_of_ne_or_ne _ _ (.inr (by decide)), Int.tdiv_eq_ediv_of_nonneg h]
  rfl

theorem square_toInt {a : S64} (h : a.toInt ^ 2 < 2 ^ 63) : (square a).toInt = a.toInt ^ 2 := by
  rw [sq] at h ⊢
  exact toInt_mul_of_abs_lt (by rwa [abs_mul_self])

/-- R176: a raw ADC result is extended as an unsigned number. -/
theorem rawS64_toInt (r : Raw24) : (rawS64 r).toInt = r.toNat := by
  have hr := r.isLt
  rw [rawS64, BitVec.toInt_setWidth, bmod_s64_of_abs_lt (abs_lt.mpr (by omega))]

/-- R176: and so is a coefficient. -/
theorem coefS64_toInt (v : Word16) : (coefS64 v).toInt = v.toNat := by
  have hv := v.isLt
  rw [coefS64, BitVec.toInt_setWidth, bmod_s64_of_abs_lt (abs_lt.mpr (by omega))]

theorem coefS64_shiftLeft_toInt (v : Word16) {n : Nat} (hn : n ≤ 32) : (coefS64 v <<< n).toInt = v.toNat * 2 ^ n := by
  have hlt : v.toNat * 2 ^ n < 2 ^ 16 * 2 ^ 32 :=
    Nat.mul_lt_mul_of_lt_of_le v.isLt (Nat.pow_le_pow_right (by decide) hn) (by positivity)
  rw [BitVec.toInt_shiftLeft, coefS64, BitVec.toNat_setWidth_of_le (by decide), Nat.shiftLeft_eq,
    bmod_s64_of_abs_lt (abs_lt.mpr (by omega)), Nat.cast_mul, Nat.cast_pow, Nat.cast_ofNat]

/-! ### Every s64 stage is its integer stage (R176, R193) -/

theorem stageDT_toInt (dRawT : Raw24) (c : Coeffs) : (stageDT dRawT c).toInt = intDT dRawT.toNat c.c5.toNat := by
  have hd := dRawT.isLt
  have hc := c.c5.isLt
  have hshift := coefS64_shiftLeft_toInt c.c5 (n := 8) (by decide)
  rw [stageDT, toInt_sub_of_abs_lt] <;> rw [rawS64_toInt, hshift]
  · rfl
  · rw [abs_lt]
    omega

/-- R180, R188, R189: the product of dT with a coefficient. -/
theorem coefS64_mul_toInt {dT : S64} (hdT : |dT.toInt| < 2 ^ 24) (v : Word16) :
    (coefS64 v * dT).toInt = v.toNat * dT.toInt := by
  have hmul := abs_coef_mul_lt hdT v
  rw [toInt_mul_of_abs_lt] <;> rw [coefS64_toInt]
  exact hmul.trans (by norm_num)

theorem stageTemp_toInt {dT : S64} (hdT : |dT.toInt| < 2 ^ 24) (c : Coeffs) :
    (stageTemp dT c).toInt = intTemp dT.toInt c.c6.toNat := by
  have htemp := abs_le.mp (abs_intTemp_sub_le hdT c.c6)
  have hshift : (shr (dT * coefS64 c.c6) 23).toInt = dT.toInt * c.c6.toNat / 2 ^ 23 := by
    rw [shr_toInt, mul_comm, coefS64_mul_toInt hdT, mul_comm]
  have hlit : (2000#64 : S64).toInt = 2000 := rfl
  rw [intTemp] at htemp
  rw [stageTemp, toInt_add_of_abs_lt] <;> rw [hlit, hshift]
  · rfl
  · rw [abs_lt]
    omega

theorem highBranch_iff (temp : S64) : highBranch temp = true ↔ 2000 ≤ temp.toInt := BitVec.sle_iff_toInt_le

theorem veryLow_iff (temp : S64) : veryLow temp = true ↔ temp.toInt < -1500 := BitVec.slt_iff_toInt_lt

/-- R178: a factor times a square; those of the pipeline are far inside the range. -/
theorem mul_square_toInt {k a : S64} (hk : |k.toInt| < 2 ^ 6) (ha : a.toInt ^ 2 < 2 ^ 48) :
    (k * square a).toInt = k.toInt * a.toInt ^ 2 := by
  have hsquare : (square a).toInt = a.toInt ^ 2 := square_toInt (ha.trans (by norm_num))
  rw [toInt_mul_of_abs_lt] <;> rw [hsquare]
  calc |k.toInt * a.toInt ^ 2| = |k.toInt| * a.toInt ^ 2 := by rw [abs_mul, abs_of_nonneg (sq_nonneg a.toInt)]
    _ < 2 ^ 6 * 2 ^ 48 := mul_lt_mul'' hk ha (abs_nonneg _) (sq_nonneg _)
    _ < 2 ^ 63 := by norm_num

theorem stageT2_toInt {dT : S64} (hdT : |dT.toInt| < 2 ^ 24) (temp : S64) :
    (stageT2 dT temp).toInt = intT2 dT.toInt temp.toInt := by
  have hmul {k : S64} (hk : |k.toInt| < 2 ^ 6) : (k * dT * dT).toInt = k.toInt * dT.toInt ^ 2 := by
    rw [mul_assoc]
    exact mul_square_toInt hk (sq_dT_lt hdT)
  simp only [stageT2, intT2, highBranch_iff]
  split <;> rw [shr_toInt, hmul (by decide)] <;> rfl

/-- R184: the correction below 20 °C. -/
theorem lowCorrection_toInt {low temp : S64} (hlow : 0 ≤ low.toInt) (hlow' : low.toInt < 2 ^ 6)
    (htemp : |temp.toInt - 2000| ≤ 2 ^ 17) :
    (div16 (low * square (temp - 2000#64))).toInt = low.toInt * (temp.toInt - 2000) ^ 2 / 16 := by
  have hsub : (temp - 2000#64).toInt = temp.toInt - 2000 := toInt_sub_of_abs_lt (htemp.trans_lt (by norm_num))
  have hmul : (low * square (temp - 2000#64)).toInt = low.toInt * (temp.toInt - 2000) ^ 2 := by
    rw [← hsub]
    refine mul_square_toInt (abs_lt.mpr ⟨by omega, hlow'⟩) ?_
    rw [hsub]
    exact (sq_temp_sub_le htemp).trans_lt (by norm_num)
  rw [div16_toInt, hmul]
  rw [hmul]
  exact mul_nonneg hlow (sq_nonneg _)

/-- R185: the addition below -15 °C. -/
theorem veryLowAddition_toInt {factor temp : S64} (hfactor : |factor.toInt| < 2 ^ 6)
    (htemp : |temp.toInt - 2000| ≤ 2 ^ 17) (h : temp.toInt < -1500) :
    (factor * square (temp + 1500#64)).toInt = factor.toInt * (temp.toInt + 1500) ^ 2 := by
  obtain ⟨hlow, -⟩ := abs_le.mp htemp
  have hadd : (temp + 1500#64).toInt = temp.toInt + 1500 := toInt_add_of_abs_lt (abs_lt.mpr ⟨by
    change _ < temp.toInt + 1500
    omega, by
    change temp.toInt + 1500 < _
    omega⟩)
  rw [← hadd]
  refine mul_square_toInt hfactor ?_
  rw [hadd]
  exact (sq_temp_add_lt htemp h).trans (by norm_num)

theorem correction_toInt {low factor temp : S64} (hlow : 0 ≤ low.toInt) (hlow' : low.toInt < 2 ^ 6)
    (hfactor : 0 ≤ factor.toInt) (hfactor' : factor.toInt < 2 ^ 6) (htemp : |temp.toInt - 2000| ≤ 2 ^ 17) :
    (correction low factor temp).toInt = intCorrection low.toInt factor.toInt temp.toInt := by
  have hbase := lowCorrection_toInt hlow hlow' htemp
  simp only [correction, highBranch_iff, veryLow_iff]
  rcases le_or_gt 2000 temp.toInt with h | h
  · rw [if_pos h, intCorrection_of_high _ _ h]
    rfl
  rw [if_neg h.not_ge]
  rcases le_or_gt (-1500) temp.toInt with h' | h'
  · rw [if_neg h'.not_gt, intCorrection_of_low _ _ h h', hbase]
  · have hextra := veryLowAddition_toInt (abs_lt.mpr ⟨by omega, hfactor'⟩) htemp h'
    have hbounds := intCorrection_bounds hlow hfactor htemp
    rw [intCorrection_of_veryLow _ _ h'] at hbounds ⊢
    rw [if_pos h', toInt_add_of_abs_lt] <;> rw [hbase, hextra]
    rw [abs_lt]
    omega

theorem stageOff2_toInt {temp : S64} (htemp : |temp.toInt - 2000| ≤ 2 ^ 17) :
    (stageOff2 temp).toInt = intCorrection 61 17 temp.toInt :=
  correction_toInt (by decide) (by decide) (by decide) (by decide) htemp

theorem stageSens2_toInt {temp : S64} (htemp : |temp.toInt - 2000| ≤ 2 ^ 17) :
    (stageSens2 temp).toInt = intCorrection 29 9 temp.toInt :=
  correction_toInt (by decide) (by decide) (by decide) (by decide) htemp

/-- R188, R189: a coefficient shifted left, plus a product with dT shifted right, less a correction. -/
theorem firstOrder_sub_toInt {dT second : S64} (hdT : |dT.toInt| < 2 ^ 24) (hsecond : |second.toInt| < 2 ^ 40)
    (u v : Word16) {m : Nat} (n : Nat) (hm : m ≤ 32) :
    ((coefS64 u <<< m) + shr (coefS64 v * dT) n - second).toInt =
      u.toNat * 2 ^ m + v.toNat * dT.toInt / 2 ^ n - second.toInt := by
  have hshl := coefS64_shiftLeft_toInt u hm
  have hshr : (shr (coefS64 v * dT) n).toInt = v.toNat * dT.toInt / 2 ^ n := by
    rw [shr_toInt, coefS64_mul_toInt hdT]
  have hu : |(u.toNat : Int) * 2 ^ m| < 2 ^ 16 * 2 ^ 33 := by
    rw [abs_mul, abs_of_nonneg (a := (2 : Int) ^ m) (by positivity)]
    exact mul_lt_mul'' (abs_toNat_lt u) (pow_lt_pow_right₀ (by norm_num) (by omega)) (abs_nonneg _) (by positivity)
  have hv := (Int.abs_ediv_le_abs (v.toNat * dT.toInt) (2 ^ n)).trans_lt (abs_coef_mul_lt hdT v)
  rw [abs_lt] at hu hv hsecond
  have hsum : ((coefS64 u <<< m) + shr (coefS64 v * dT) n).toInt = u.toNat * 2 ^ m + v.toNat * dT.toInt / 2 ^ n := by
    rw [toInt_add_of_abs_lt] <;> rw [hshl, hshr]
    exact abs_lt.mpr (by omega)
  rw [toInt_sub_of_abs_lt] <;> rw [hsum]
  exact abs_lt.mpr (by omega)

theorem stageOff_toInt {dT temp : S64} (hdT : |dT.toInt| < 2 ^ 24) (htemp : |temp.toInt - 2000| ≤ 2 ^ 17) (c : Coeffs) :
    (stageOff dT (stageOff2 temp) c).toInt = intOff dT.toInt (intCorrection 61 17 temp.toInt) c.c2.toNat c.c4.toNat := by
  have hoff2 := intOff2_bounds htemp
  rw [← stageOff2_toInt htemp] at hoff2 ⊢
  exact firstOrder_sub_toInt hdT (abs_lt.mpr (by omega)) c.c2 c.c4 6 (by decide)

theorem stageSens_toInt {dT temp : S64} (hdT : |dT.toInt| < 2 ^ 24) (htemp : |temp.toInt - 2000| ≤ 2 ^ 17) (c : Coeffs) :
    (stageSens dT (stageSens2 temp) c).toInt = intSens dT.toInt (intCorrection 29 9 temp.toInt) c.c1.toNat c.c3.toNat := by
  have hsens2 := intSens2_bounds htemp
  rw [← stageSens2_toInt htemp] at hsens2 ⊢
  exact firstOrder_sub_toInt hdT (abs_lt.mpr (by omega)) c.c1 c.c3 7 (by decide)

theorem stageP_toInt {sens off : S64} (hsens : |sens.toInt| < 2 ^ 38) (hoff : |off.toInt| < 2 ^ 40) (dRawP : Raw24) :
    (stageP dRawP sens off).toInt = intP dRawP.toNat sens.toInt off.toInt := by
  have hmul : (rawS64 dRawP * sens).toInt = dRawP.toNat * sens.toInt := by
    rw [toInt_mul_of_abs_lt] <;> rw [rawS64_toInt]
    exact (abs_raw_mul_sens_lt hsens dRawP).trans (by norm_num)
  have hterm := abs_lt.mp (abs_raw_mul_sens_div_lt hsens dRawP)
  rw [abs_lt] at hoff
  rw [stageP, shr_toInt, toInt_sub_of_abs_lt] <;> rw [shr_toInt, hmul]
  · rfl
  · exact abs_lt.mpr (by omega)

theorem stageTout_toInt {dT temp : S64} (hdT : |dT.toInt| < 2 ^ 24) (htemp : |temp.toInt - 2000| ≤ 2 ^ 17) :
    (stageTout temp (stageT2 dT temp)).toInt = temp.toInt - intT2 dT.toInt temp.toInt := by
  have ht2 := intT2_bounds hdT temp.toInt
  rw [abs_le] at htemp
  rw [stageTout, toInt_sub_of_abs_lt] <;> rw [stageT2_toInt hdT]
  exact abs_lt.mpr (by omega)

/-- Settles O29: each stage is its integer stage, on the bounds of the stages before it. -/
theorem pipelineEqualsItsIntegerForm : Obligations.PipelineEqualsItsIntegerForm := by
  unfold Obligations.PipelineEqualsItsIntegerForm
  intro dRawT dRawP c
  have hdT : |(stageDT dRawT c).toInt| < 2 ^ 24 := stageDT_toInt dRawT c ▸ abs_intDT_lt dRawT c.c5
  have htemp : |(stageTemp (stageDT dRawT c) c).toInt - 2000| ≤ 2 ^ 17 :=
    stageTemp_toInt hdT c ▸ abs_intTemp_sub_le hdT c.c6
  have hoff := stageOff_toInt hdT htemp c ▸ abs_intOff_lt hdT htemp c.c2 c.c4
  have hsens := stageSens_toInt hdT htemp c ▸ abs_intSens_lt hdT htemp c.c1 c.c3
  simp only [pipeline, intsOf, stageP_toInt hsens hoff, stageTout_toInt hdT htemp, stageOff_toInt hdT htemp,
    stageSens_toInt hdT htemp, stageOff2_toInt htemp, stageSens2_toInt htemp, stageT2_toInt hdT, stageTemp_toInt hdT,
    stageDT_toInt, intPipeline_eq]

/-! ### What the integer form says of the s64 pipeline -/

/-- Settles O31: on integers (O29) the two branch tests are those of TEMP. -/
theorem correctionFollowsTemp : Obligations.CorrectionFollowsTemp := by
  unfold Obligations.CorrectionFollowsTemp
  intro dRawT dRawP c
  rw [pipelineEqualsItsIntegerForm dRawT dRawP c, intPipeline_eq]
  refine ⟨fun h => ?_, fun h h' => ?_, fun h => ?_⟩
  · exact ⟨intT2_of_high _ h, intCorrection_of_high _ _ h, intCorrection_of_high _ _ h⟩
  · exact ⟨intT2_of_low _ h, intCorrection_of_low _ _ h h', intCorrection_of_low _ _ h h'⟩
  · exact ⟨intT2_of_low _ (h.trans (by norm_num)), intCorrection_of_veryLow _ _ h, intCorrection_of_veryLow _ _ h⟩

/-- Settles O33: the integer form (O29) of the example's operands. -/
theorem workedExampleOfTheCompensation : Obligations.WorkedExampleOfTheCompensation := by
  unfold Obligations.WorkedExampleOfTheCompensation
  rw [pipelineEqualsItsIntegerForm]
  decide

/-! ### The operation COMP -/

/-- R175: COMP makes no event, so it completes whatever hangs. -/
theorem exec_comp (s : State) : exec .comp s = .next (compensate s) := exec_of_no_event (i := .comp) trivial rfl

/-- Settles O28: the pipeline registers are the integer pipeline's by O29, and the rest is `compensate`. -/
theorem compWritesOnlyThePipeline : Obligations.CompWritesOnlyThePipeline := by
  unfold Obligations.CompWritesOnlyThePipeline
  intro s
  have hints : intsOf (pipeline s.rawT s.rawP s.coef) = intPipelineOf s := pipelineEqualsItsIntegerForm _ _ _
  refine ⟨pipeline s.rawT s.rawP s.coef, hints, ?_⟩
  rw [exec_comp, ← hints]
  rfl

/-- R196: the temperature half of the pipeline reads D_T, C5 and C6 only. -/
theorem pipeline_temperature_congr {dRawT dRawP dRawP' : Raw24} {c c' : Coeffs} (h5 : c.c5 = c'.c5) (h6 : c.c6 = c'.c6) :
    let q := pipeline dRawT dRawP c
    let q' := pipeline dRawT dRawP' c'
    q.temp = q'.temp ∧ q.t2 = q'.t2 ∧ q.off2 = q'.off2 ∧ q.sens2 = q'.sens2 ∧ q.tout = q'.tout := by
  have hdT : stageDT dRawT c = stageDT dRawT c' := by rw [stageDT, stageDT, h5]
  have htemp (dT : S64) : stageTemp dT c = stageTemp dT c' := by rw [stageTemp, stageTemp, h6]
  simp only [pipeline, hdT, htemp, and_self]

/-- Settles O32: both runs end in `compensate`, whose T_CENTI is the pipeline's `tout`. -/
theorem temperatureIgnoresThePressureOperands : Obligations.TemperatureIgnoresThePressureOperands := by
  unfold Obligations.TemperatureIgnoresThePressureOperands
  intro s s' t t' hraw h5 h6 hs hs'
  rw [exec_comp] at hs hs'
  cases hs
  cases hs'
  simp only [compensate, readingOf, hraw]
  exact pipeline_temperature_congr h5 h6

end Sys2Proof.Machine

/-!
The event adapter (spec/44_event_adapter.md). None of its operations makes an event, so an admitted one completes
whatever hangs (`exec_of_no_event`), and its next state is its effect.
-/

namespace Sys2Proof.Machine

open Sys2Proof.Safety

/-- R225, R32: the return of a host operation that never left IDLE writes the returned bit only. -/
theorem hostReturn_of_idle {b : Bool} {s : State} (hidle : s.seq = .idle) : hostReturn b s = s.returning b := by
  rw [hostReturn, ← hidle]
  rfl

/-- R210, R214: an admitted operation that leaves IDLE and the trace alone before it returns completes whatever hangs. -/
theorem exec_of_silent_return {i : Instr} {s u : State} {b : Bool} (hadmits : admits i s)
    (heffect : effect i s = hostReturn b u) (hidle : u.seq = .idle) (htrace : u.trace = s.trace) :
    exec i s = .next (u.returning b) := by
  rw [exec_of_no_event hadmits (by rw [heffect]; exact htrace), heffect, hostReturn_of_idle hidle]

/-- R212: EVT.FILL has no precondition and makes no event, so it completes whatever hangs. -/
theorem exec_evtFill (ch : Channel) (s : State) : exec (.evtFill ch) s = .next (evtFill ch s) :=
  exec_of_no_event (i := .evtFill ch) trivial rfl

/-- Settles O35: EVT.FILL completes on both channels, and `evtRecord` reads the channel's descriptor and cache register. -/
theorem evtFillPackagesTheCache : Obligations.EvtFillPackagesTheCache := by
  unfold Obligations.EvtFillPackagesTheCache
  intro s
  exact ⟨exec_evtFill .temperature s, exec_evtFill .pressure s⟩

/-- Settles O36: a GETEVT admitted in IDLE makes no event; its effect is EVT.FILL of its channel, then the return of true. -/
theorem getEventReturnsTheCachedReading : Obligations.GetEventReturnsTheCachedReading := by
  unfold Obligations.GetEventReturnsTheCachedReading
  intro s hidle hinit
  constructor
  · exact exec_of_silent_return (i := .getevtT) (u := evtFill .temperature s) ⟨hidle, hinit⟩ rfl hidle rfl
  · exact exec_of_silent_return (i := .getevtP) (u := evtFill .pressure s) ⟨hidle, hinit⟩ rfl hidle rfl

/-- Settles O37: a GETMETA admitted in IDLE makes no event; its effect is the channel's descriptor, then the return of true. -/
theorem getMetadataReturnsTheChannel : Obligations.GetMetadataReturnsTheChannel := by
  unfold Obligations.GetMetadataReturnsTheChannel
  intro s hidle hinit
  constructor
  · exact exec_of_silent_return (i := .getmetaT) (u := metaRead .temperature s) ⟨hidle, hinit⟩ rfl hidle rfl
  · exact exec_of_silent_return (i := .getmetaP) (u := metaRead .pressure s) ⟨hidle, hinit⟩ rfl hidle rfl

/-- Settles O38: a GETMETA that completes was admitted, so the block is ready by the invariant, and the descriptors O37
returns are the constant records there. -/
theorem getMetadataOfAReadyBlock : Obligations.GetMetadataOfAReadyBlock := by
  unfold Obligations.GetMetadataOfAReadyBlock
  intro s t t' hinv hT hP
  obtain ⟨⟨hidle, hinit⟩, -⟩ := exec_eq_next hT
  obtain ⟨hready, -⟩ := hinv
  obtain ⟨-, -, -, -, hchT, hchP⟩ := hready hinit
  obtain ⟨hmetaT, hmetaP⟩ := getMetadataReturnsTheChannel s hidle hinit
  cases hmetaT.symm.trans hT
  cases hmetaP.symm.trans hP
  exact ⟨congrArg some hchT, congrArg some hchP⟩

end Sys2Proof.Machine

/-!
The host operations (spec/45_host_operations.md). INIT has one equation for each exit: the transport does not open
(`initialise_of_closed`), a PROM read failed (`initialise_of_failed_read`), the block passes or it does not
(`initialise_of_passes`, `initialise_of_not_passes`); its events are `initialise_events`. MEASURE is its cycle and, after a good
one, the commit (`commitAndFill_records`). The ideal sensor of R81 is an environment like any other: what it answers is said once
(`SensorAnswers`), and the reads of INIT and the phases of the cycle are followed with it.
-/

namespace Sys2Proof.Machine

open Sys2Proof.Safety

/-! ### Refusals (R227, R232, R210, R214) -/

/-- Settles O17: the precondition of RESET is BUS_OPEN = 1. -/
theorem resetNeedsAnOpenTransport : Obligations.ResetNeedsAnOpenTransport := by
  unfold Obligations.ResetNeedsAnOpenTransport
  intro s hidle hclosed
  change hostOperation s.busOpen _ s _ = _
  rw [hclosed, hostOperation_refused hidle]

/-- Settles O39: the precondition of each of the five is INITIALIZED = 1. -/
theorem nothingIsMeasuredBeforeInit : Obligations.NothingIsMeasuredBeforeInit := by
  unfold Obligations.NothingIsMeasuredBeforeInit
  intro s p t h hidle hnot
  have hrefused (u : State) : hostOperation s.initialized .notInitialized s u = .refused .notInitialized := by
    rw [hnot, hostOperation_refused hidle]
  exact ⟨hrefused _, hrefused _, hrefused _, hrefused _, hrefused _⟩

/-! ### INIT and its exits (R226) -/

theorem exec_init {s : State} (hidle : s.seq = .idle) (hhang : s.hangAt = none) (bus ident : Nat) :
    exec (.init bus ident) s = .next (initialise bus ident s) :=
  exec_completes (i := .init bus ident) hidle hhang

/-- The first event of INIT (R226, R237). -/
def openEvent (bus : Nat) (s : State) : Event :=
  .txn (.busOpen bus s.cfg.devAddr) (busAnswer (.busOpen bus s.cfg.devAddr) s)

theorem failed_openEvent (bus : Nat) (s : State) :
    failed (openEvent bus s) = !(openBus (initStart bus ident s)).busOpen := rfl

/-- R254, R268: INIT stops when the transport does not open. -/
theorem initialise_of_closed {bus ident : Nat} {s : State} (h : (openBus (initStart bus ident s)).busOpen = false) :
    initialise bus ident s = hostReturn false (openBus (initStart bus ident s)) := by
  simp only [initialise, h, raiseFailure_eq, Bool.false_eq_true, if_false]

/-- INIT after its PROM reads, where the transport has opened (R226, R141). -/
def initReads (bus ident : Nat) (s : State) : State := promReads promIndices (openBus (initStart bus ident s)).startStatus

theorem initialise_eq_initAfterReads {bus ident : Nat} {s : State}
    (hopen : (openBus (initStart bus ident s)).busOpen = true) :
    initialise bus ident s = initAfterReads (initReads bus ident s) :=
  initialise_of_open hopen

/-- R142, R254: INIT stops when a PROM read failed, before the check. -/
theorem initialise_of_failed_read {bus ident : Nat} {s : State} (hopen : (openBus (initStart bus ident s)).busOpen = true)
    (hread : (initReads bus ident s).status = false) :
    initialise bus ident s = hostReturn false (initReads bus ident s) := by
  rw [initialise_eq_initAfterReads hopen, initAfterReads, hread]
  rfl

/-- R226: INIT returns what INITIALIZED is after it, whichever exit it takes. -/
theorem initialise_ret (bus ident : Nat) (s : State) :
    (initialise bus ident s).ret = some (initialise bus ident s).initialized := by
  cases hopen : (openBus (initStart bus ident s)).busOpen with
  | false => rw [initialise_of_closed hopen]; rfl
  | true =>
    rw [initialise_of_busOpen hopen]
    split
    · rfl
    · exact congrArg some (promLoad_initialized (openBus (initStart bus ident s))).symm

/-- R148: an INIT that does not end ready leaves the coefficients, OSR and the channels as they were. -/
theorem initialise_not_ready {bus ident : Nat} {s : State} (h : (initialise bus ident s).initialized = false) :
    (initialise bus ident s).coef = s.coef ∧ (initialise bus ident s).osr = s.osr ∧
      (initialise bus ident s).chT = s.chT ∧ (initialise bus ident s).chP = s.chP := by
  cases hopen : (openBus (initStart bus ident s)).busOpen with
  | false => rw [initialise_of_closed hopen]; exact ⟨rfl, rfl, rfl, rfl⟩
  | true =>
    rw [initialise_of_busOpen hopen] at h ⊢
    split
    · rename_i hload
      rw [if_pos hload] at h
      cases h
    · rename_i hload
      obtain ⟨hcoef, hosr⟩ := promLoad_of_not_loadOk hload
      exact ⟨hcoef, hosr, by rw [promLoad_eq]; rfl, by rw [promLoad_eq]; rfl⟩

/-- R237, R142: the events of INIT over an open transport are the open and those of the PROM reads, and a failed one among the
reads is what leaves STATUS = 0 before the check. -/
theorem initialise_events {bus ident : Nat} {s : State} (hopen : (openBus (initStart bus ident s)).busOpen = true) :
    ∃ reads, (initialise bus ident s).trace = s.trace ++ openEvent bus s :: reads ∧
      reads.map askOf = (promAsks s).take reads.length ∧
      (initReads bus ident s).status = reads.all (fun e => !failed e) ∧
      (s.cfg.initAbortEarly = true → ∀ e ∈ reads.dropLast, failed e = false) ∧
      (reads.length = 7 ∨ s.cfg.initAbortEarly = true ∧ ∃ e ∈ reads, failed e = true) := by
  obtain ⟨reads, htrace, hasks, hstatus, habort, hlength⟩ :=
    promReads_events promIndices (openBus (initStart bus ident s)).startStatus
  refine ⟨reads, ?_, ?_, hstatus, habort, ?_⟩
  · have hload : (initialise bus ident s).trace = (promLoad (openBus (initStart bus ident s))).trace := by
      rw [initialise_of_busOpen hopen]
      split <;> rfl
    rw [hload, promLoad_trace, htrace]
    exact List.append_assoc _ [openEvent bus s] reads
  · rw [hasks, promAsks_eq]
    rfl
  · rcases hlength with hall | ⟨hearly, -, hfailed⟩
    · exact .inl hall
    · exact .inr ⟨hearly, hfailed⟩

/-- Settles O44: after a failed open INIT ends (`initialise_of_closed`), else its reads are those of `initialise_events`. -/
theorem initEventsComeInOrder : Obligations.InitEventsComeInOrder := by
  unfold Obligations.InitEventsComeInOrder
  rintro s bus ident ⟨hidle, hhang⟩
  cases hopen : (openBus (initStart bus ident s)).busOpen with
  | false =>
    have hfail : failed (openEvent bus s) = true := by rw [failed_openEvent, hopen]; rfl
    refine ⟨_, openEvent bus s, [], exec_init hidle hhang bus ident, ?_, rfl, rfl, fun _ => rfl, ?_, ?_, nofun⟩
    · rw [initialise_of_closed hopen]
      rfl
    · simp [hfail]
    · simp [hfail]
  | true =>
    have hok : failed (openEvent bus s) = false := by rw [failed_openEvent, hopen]; rfl
    obtain ⟨reads, htrace, hasks, -, habort, hlength⟩ := initialise_events hopen
    refine ⟨_, openEvent bus s, reads, exec_init hidle hhang bus ident, htrace, rfl, hasks, ?_, ?_, ?_, habort⟩
    · simp [hok]
    · rintro - hlate
      rcases hlength with hall | ⟨hearly, -⟩
      · exact hall
      · exact absurd (hlate.symm.trans hearly) (by decide)
    · rintro - hgood
      rcases hlength with hall | ⟨-, e, he, hfail⟩
      · exact hall
      · exact absurd ((hgood e he).symm.trans hfail) (by decide)

/-- R142, R254, R268: after an INIT one of whose transactions failed the block is not ready and the validator has not run. -/
theorem initialise_of_failed_event {bus ident : Nat} {s : State}
    (h : ∃ e ∈ newEvents s (initialise bus ident s), failed e = true) :
    (initialise bus ident s).initialized = false ∧ (initialise bus ident s).crc = s.crc ∧
      (initialise bus ident s).crcn = s.crcn ∧ (initialise bus ident s).crcOk = s.crcOk ∧
      (initialise bus ident s).w.w7 = s.w.w7 := by
  cases hopen : (openBus (initStart bus ident s)).busOpen with
  | false => rw [initialise_of_closed hopen]; exact ⟨rfl, rfl, rfl, rfl, rfl⟩
  | true =>
    obtain ⟨reads, htrace, -, hstatus, -⟩ := initialise_events hopen
    rw [newEvents_of_trace htrace] at h
    obtain ⟨e, he, hfail⟩ := h
    have hread : reads.all (fun e => !failed e) = false := by
      rcases List.mem_cons.mp he with rfl | he
      · rw [failed_openEvent, hopen] at hfail
        cases hfail
      · exact List.all_eq_false.mpr ⟨e, he, by simp [hfail]⟩
    rw [initialise_of_failed_read hopen (hstatus.trans hread)]
    refine ⟨?_, ?_, ?_, ?_, promReads_w7 _ _⟩ <;> (rw [initReads, promReads_eq]; rfl)

/-- Settles O43: the returned bit is `initialise_ret`, the two failures are `initialise_of_failed_event` and
`initialise_not_ready`, and the frame is `initialise_frame`. -/
theorem initReturnsWhetherTheBlockIsReady : Obligations.InitReturnsWhetherTheBlockIsReady := by
  unfold Obligations.InitReturnsWhetherTheBlockIsReady
  rintro s bus ident ⟨hidle, hhang⟩
  refine ⟨_, exec_init hidle hhang bus ident, initialise_ret bus ident s, ?_, initialise_of_failed_event,
    initialise_not_ready, ?_⟩
  · intro hready
    rcases initialise_calibration bus ident s with ⟨-, -, hblock⟩ | ⟨hnot, -⟩
    · exact hblock
    · exact absurd (hready.symm.trans hnot) (by decide)
  · conv_lhs => rw [initialise_frame, ← hidle]

/-- Settles O42: STATUS, which starts at 1, is and-ed with the flag of the open. -/
theorem initStopsWhenTheTransportDoesNotOpen : Obligations.InitStopsWhenTheTransportDoesNotOpen := by
  unfold Obligations.InitStopsWhenTheTransportDoesNotOpen
  rintro s bus ident ⟨hidle, hhang⟩ r hfail
  have hopened : openBus (initStart bus ident s) = { initStart bus ident s with
      busOpen := (busAnswer r s).ok
      status := (busAnswer r s).ok
      env := envAfter s.cfg s.txn s.env r
      txn := s.txn + 1
      trace := s.trace ++ [.txn r (busAnswer r s)] } := rfl
  rw [exec_init hidle hhang, initialise_of_closed hfail, hopened, hfail, hostReturn, ← hidle]
  rfl

/-! ### INIT and the check of its block (R226, R143 to R146) -/

/-- R124, R125: the check of a buffer, with `ok` for the outcome of its comparison. -/
theorem checkProm_of_crcOk {s : State} {ok : Bool} (h : (checkProm s).crcOk = ok) :
    checkProm s = { s with
      w := { s.w with w7 := 0 }
      crcn := crcNibble s.w.w0
      crc := crcRegsAfter s.w (crcNibble s.w.w0)
      crcOk := ok } := by
  rw [← h]
  rfl

/-- R226, R146: INIT commits the block of seven good reads if it passes. -/
theorem initialise_of_passes {bus ident : Nat} {s : State} (hopen : (openBus (initStart bus ident s)).busOpen = true)
    (hread : (initReads bus ident s).status = true)
    (hpass : passes (initReads bus ident s).w) :
    initialise bus ident s = hostReturn true (becomeReady (commitCalibration (checkProm (initReads bus ident s)))) := by
  rw [initialise_eq_initAfterReads hopen, initAfterReads, if_pos hread, checkProm_crcOk, if_pos (beq_iff_eq.mpr hpass)]

/-- R226, R145: INIT ends after the check of a block that does not pass. -/
theorem initialise_of_not_passes {bus ident : Nat} {s : State} (hopen : (openBus (initStart bus ident s)).busOpen = true)
    (hread : (initReads bus ident s).status = true)
    (hpass : ¬ passes (initReads bus ident s).w) :
    initialise bus ident s = hostReturn false (checkProm (initReads bus ident s)) := by
  rw [initialise_eq_initAfterReads hopen, initAfterReads, if_pos hread, checkProm_crcOk, if_neg (mt beq_iff_eq.mp hpass)]

/-- R60, R141: INIT up to the check, when the transport opens and the reads give the words of `b`. -/
theorem initReads_script {bus ident : Nat} {s : State} {b : PromBuf} {rest : List Answer}
    (h : s.env = .script (⟨true, []⟩ :: promAnswers b ++ rest)) :
    (openBus (initStart bus ident s)).busOpen = true ∧
    initReads bus ident s = { initStart bus ident s with
      busOpen := true
      w := { b with w7 := s.w.w7 }
      env := .script rest
      txn := s.txn + 8
      trace := s.trace ++ .txn (.busOpen bus s.cfg.devAddr) ⟨true, []⟩ :: promEvents s b } := by
  have hopened := openBus_script (s := initStart bus ident s) h
  refine ⟨by rw [hopened], ?_⟩
  rw [initReads, promReads_startStatus_script (b := b) (rest := rest) (by rw [hopened]; rfl), hopened, List.append_assoc]
  rfl

/-- Settles O40: the reads are `initReads_script`, and what they give is checked and committed (`initialise_of_passes`). -/
theorem initLoadsAPassingBlock : Obligations.InitLoadsAPassingBlock := by
  unfold Obligations.InitLoadsAPassingBlock
  rintro s bus ident b rest ⟨hidle, hhang⟩ henv hb
  obtain ⟨hopen, hreads⟩ := initReads_script (bus := bus) (ident := ident) henv
  have hok : (crc4 b == crcNibble b.w0) = true := beq_iff_eq.mpr hb
  refine ⟨15, 1, ?_⟩
  rw [exec_init hidle hhang, initialise_of_passes hopen (by rw [hreads]; rfl) (by rw [hreads]; exact hb),
    checkProm_of_crcOk (ok := true), hreads, hostReturn, ← hidle]
  · rfl
  · rw [hreads]
    exact hok

/-- Settles O41: the same reads, and the check without a commit (`initialise_of_not_passes`). -/
theorem initRejectsACorruptBlock : Obligations.InitRejectsACorruptBlock := by
  unfold Obligations.InitRejectsACorruptBlock
  rintro s bus ident b rest ⟨hidle, hhang⟩ henv hb
  obtain ⟨hopen, hreads⟩ := initReads_script (bus := bus) (ident := ident) henv
  have hok : (crc4 b == crcNibble b.w0) = false := beq_eq_false_iff_ne.mpr hb
  refine ⟨15, 1, ?_⟩
  rw [exec_init hidle hhang, initialise_of_not_passes hopen (by rw [hreads]; rfl) (by rw [hreads]; exact hb),
    checkProm_of_crcOk (ok := false), hreads, hostReturn, ← hidle]
  · rfl
  · rw [hreads]
    exact hok

/-! ### MEASURE (R228, R229, R231, R233) -/

theorem exec_measure {s : State} (hidle : s.seq = .idle) (hhang : s.hangAt = none) (hinit : s.initialized = true)
    (p t h : Bool) : exec (.measure p t h) s = .next (measure p t s) :=
  exec_completes (i := .measure p t h) ⟨hidle, hinit⟩ hhang

theorem measure_of_success {p t : Bool} {s : State} (h : (convCycle (measureStart p t s)).status = true) :
    measure p t s = commitAndFill (compensate (convCycle (measureStart p t s))) := by
  rw [measure_eq, if_pos h]

theorem measure_of_failure {p t : Bool} {s : State} (h : (convCycle (measureStart p t s)).status = false) :
    measure p t s = hostReturn false (convCycle (measureStart p t s)) := by
  rw [measure_eq, h]
  rfl

/-- R228, R233: MEASURE returns the STATUS its cycle ends with. -/
theorem measure_ret (p t : Bool) (s : State) : (measure p t s).ret = some (convCycle (measureStart p t s)).status := by
  cases h : (convCycle (measureStart p t s)).status with
  | true => rw [measure_of_success h]; rfl
  | false => rw [measure_of_failure h]; rfl

/-- R231: a record that was asked for draws one timestamp. -/
theorem fillWantedP_eq (s : State) :
    fillWantedP s = { s with
      recP := if s.want.p then evtRecord .pressure s else s.recP
      stamps := s.stamps + s.want.p.toNat } := by
  unfold fillWantedP
  cases s.want.p <;> rfl

theorem fillWantedT_eq (s : State) :
    fillWantedT s = { s with
      recT := if s.want.t then evtRecord .temperature s else s.recT
      stamps := s.stamps + s.want.t.toNat } := by
  unfold fillWantedT
  cases s.want.t <;> rfl

/-- R228, R229, R231: the commit, then the pressure record, then the temperature record, each from the committed reading. -/
theorem commitAndFill_records (s : State) :
    commitAndFill s = { s with
      cache := s.compRet
      recP := if s.want.p then ⟨.pressure, s.chP.params.sensorId, Config.now s.stamps, s.compRet.pRead⟩ else s.recP
      recT := if s.want.t then
          ⟨.temperature, s.chT.params.sensorId, Config.now (s.stamps + s.want.p.toNat), s.compRet.tRead⟩
        else s.recT
      stamps := s.stamps + s.want.p.toNat + s.want.t.toNat
      seq := .idle
      ret := some true } := by
  rw [commitAndFill, fillWantedT_eq, fillWantedP_eq]
  rfl

/-- Settles O45: the cycle is `convCycle_script`, COMP computes from its two raw values, and the commit is
`commitAndFill_records`. -/
theorem measureCommitsTheReading : Obligations.MeasureCommitsTheReading := by
  unfold Obligations.MeasureCommitsTheReading
  rintro s p t h a b c d e f rest ⟨hidle, hhang⟩ hinit henv q r
  have hcycle := convCycle_script (s := measureStart p t s) henv
  rw [adcWord_triple, adcWord_triple] at hcycle
  refine ⟨threeBytes a b c, threeBytes d e f, ?_⟩
  rw [exec_measure hidle hhang hinit, measure_of_success (by rw [hcycle]; rfl), hcycle, commitAndFill_records, ← hidle]
  rfl

/-- Settles O46: the returned bit is STATUS after the cycle (`measure_ret`, `asked_convCycle`), and a failed MEASURE ends in
what the cycle writes (`convCycle_eq`). -/
theorem failedMeasureKeepsTheReading : Obligations.FailedMeasureKeepsTheReading := by
  unfold Obligations.FailedMeasureKeepsTheReading
  rintro s p t h ⟨hidle, hhang⟩ hinit
  obtain ⟨evs, hcycle, -, hstatus⟩ := asked_convCycle (measureStart p t s)
  have hnew : newEvents s (measure p t s) = evs := newEvents_of_trace ((measure_trace p t s).trans hcycle)
  refine ⟨_, exec_measure hidle hhang hinit p t h, ?_, fun hret => ?_⟩
  · rw [hnew, measure_ret, hstatus]
    rfl
  · have hfail : (convCycle (measureStart p t s)).status = false := Option.some.inj ((measure_ret p t s).symm.trans hret)
    rw [measure_of_failure hfail, convCycle_eq, hfail, hostReturn, ← hidle]
    rfl

/-- Settles O48: `h` is no argument of `measure`, and no host operation writes the humidity record
(`effect_keeps_constants`). -/
theorem humidityFlagHasNoEffect : Obligations.HumidityFlagHasNoEffect := by
  unfold Obligations.HumidityFlagHasNoEffect
  intro s p t
  refine ⟨rfl, fun u hexec => ?_⟩
  obtain ⟨-, rfl⟩ := exec_eq_next hexec
  obtain ⟨-, hrecH⟩ := effect_keeps_constants (i := .measure p t true) rfl s
  exact hrecH

/-! ### The end of a host operation (R225) -/

theorem effect_ret {i : Instr} (hi : i.layer = .host) (s : State) : (effect i s).ret.isSome = true := by
  cases i with
  | reset => rw [effect, resetCommand_eq]; rfl
  | init bus ident => rw [effect, initialise_ret]; rfl
  | measure p t h => rw [effect, measure_ret]; rfl
  | getevtT | getevtP | getmetaT | getmetaP => rfl
  | _ => cases hi

/-- Settles O58: SEQ is `effect_seq`, the returned bit `effect_ret`. -/
theorem hostOperationsReturnToIdle : Obligations.HostOperationsReturnToIdle := by
  unfold Obligations.HostOperationsReturnToIdle
  intro i s t hhost hexec
  obtain ⟨-, rfl⟩ := exec_eq_next hexec
  exact ⟨effect_seq hhost s, effect_ret hhost s⟩

/-! ### The ideal sensor (R81) -/

/-- The ideal sensor `sn` answers the bus, and no transaction is marked to fail. -/
def SensorAnswers (sn : Sensor) (s : State) : Prop := s.env = .ideal sn ∧ sn.fails = []

theorem SensorAnswers.ok {sn : Sensor} {s : State} (h : SensorAnswers sn s) (r : Request) : (busAnswer r s).ok = true := by
  obtain ⟨henv, hfails⟩ := h
  cases r <;> simp [busAnswer, envAnswer, henv, sensorAnswer, hfails]

/-- A read returns the bytes of the sensor where it has as many as were asked for. -/
theorem SensorAnswers.data {sn : Sensor} {s : State} (h : SensorAnswers sn s) {cmd : Byte} {n : Nat} {bytes : List Byte}
    (hbytes : sensorBytes s.cfg sn cmd = bytes) (hlength : bytes.length = n) :
    (busAnswer (.busWriteRead cmd n) s).data = bytes := by
  obtain ⟨henv, hfails⟩ := h
  simp [busAnswer, envAnswer, henv, sensorAnswer, hfails, hbytes, fitBytes_of_length hlength]

theorem SensorAnswers.busOpen {sn : Sensor} {s : State} (h : SensorAnswers sn s) (handle : Nat) (dev : BitVec 7) :
    SensorAnswers sn (transact (.busOpen handle dev) s) := by
  obtain ⟨henv, hfails⟩ := h
  exact ⟨by simp [henv, envAfter, sensorAfter], hfails⟩

theorem SensorAnswers.read {sn : Sensor} {s : State} (h : SensorAnswers sn s) (cmd : Byte) (n : Nat) :
    SensorAnswers sn (transact (.busWriteRead cmd n) s) := by
  obtain ⟨henv, hfails⟩ := h
  exact ⟨by simp [henv, envAfter, sensorAfter], hfails⟩

theorem sensorWrite_fails (cfg : Params) (sn : Sensor) (cmd : Byte) : (sensorWrite cfg sn cmd).fails = sn.fails := by
  unfold sensorWrite
  split
  · rfl
  · split <;> rfl

theorem SensorAnswers.write {sn : Sensor} {s : State} (h : SensorAnswers sn s) (cmd : Byte) :
    SensorAnswers (sensorWrite s.cfg sn cmd) (transact (.busWrite cmd) s) := by
  obtain ⟨henv, hfails⟩ := h
  exact ⟨by simp [henv, envAfter, sensorAfter, hfails], (sensorWrite_fails s.cfg sn cmd).trans hfails⟩

/-! ### INIT against the ideal sensor (R226) -/

/-- R94: the seven read commands differ. -/
theorem promrdByte_injective (base : Byte) : Function.Injective (promrdByte base) := by
  intro i j h
  have hoffset : BitVec.ofNat 8 (2 * i.val) = BitVec.ofNat 8 (2 * j.val) := add_left_cancel (a := base) h
  have hnat := congrArg BitVec.toNat hoffset
  simp only [BitVec.toNat_ofNat] at hnat
  omega

/-- A PROM read command finds its own word (log 9: also where it is CMD_ADC_READ). -/
theorem sensorBytes_promrdByte (cfg : Params) (sn : Sensor) (i : Fin 7) :
    sensorBytes cfg sn (promrdByte cfg.promBase i) = wordBytes sn.prom[i] := by
  have hfind : promIndices.find? (fun j => promrdByte cfg.promBase j = promrdByte cfg.promBase i) = some i := by
    simp only [(promrdByte_injective cfg.promBase).eq_iff]
    decide +revert
  rw [sensorBytes, hfind]

theorem promReadWord_ideal {sn : Sensor} {s : State} (h : SensorAnswers sn s) (i : Fin 7) : promReadWord i s = sn.prom[i] := by
  have hdata : (busAnswer (promRequest i s) s).data = wordBytes sn.prom[i] := h.data (sensorBytes_promrdByte s.cfg sn i) rfl
  rw [promReadWord, h.ok, hdata, if_pos rfl, promWord_wordBytes]

/-- R141: the reads succeed, give the sensor's words, and leave the sensor as it was. -/
theorem promReads_ideal {sn : Sensor} {s : State} (h : SensorAnswers sn s) (l : List (Fin 7)) :
    SensorAnswers sn (promReads l s) ∧ (promReads l s).status = s.status ∧
      (promReads l s).w = l.foldl (fun w i => w.set (bufIndex i) sn.prom[i]) s.w := by
  induction l generalizing s with
  | nil => exact ⟨h, rfl, rfl⟩
  | cons i rest ih =>
    have hgoes : stopsAfter i s = false := by rw [stopsAfter, h.ok]; rfl
    have hread : SensorAnswers sn (promRead i s) := h.read _ _
    obtain ⟨hanswers, hstatus, hw⟩ := ih hread
    rw [promReads, hgoes, if_neg Bool.false_ne_true]
    refine ⟨hanswers, hstatus.trans ?_, hw.trans ?_⟩
    · rw [promRead_eq, h.ok, Bool.and_true]
    · rw [promRead_eq, promReadWord_ideal h, List.foldl_cons]

/-- Settles O59: the transport opens, the reads are `promReads_ideal`, and the block they give passes
(`initialise_of_passes`). -/
theorem idealSensorLoadsItsProm : Obligations.IdealSensorLoadsItsProm := by
  unfold Obligations.IdealSensorLoadsItsProm
  rintro s sn bus ident ⟨hidle, hhang⟩ henv hfails hpass
  have hstart : SensorAnswers sn (initStart bus ident s) := ⟨henv, hfails⟩
  have hopen : (openBus (initStart bus ident s)).busOpen = true := hstart.ok _
  have hopened : SensorAnswers sn (openBus (initStart bus ident s)).startStatus := hstart.busOpen _ _
  obtain ⟨⟨hsensor, -⟩, hstatus, hw⟩ := promReads_ideal hopened promIndices
  have hblock : (initReads bus ident s).w = { sensorProm sn with w7 := s.w.w7 } := hw
  have hload := initialise_of_passes hopen hstatus (by rw [hblock]; exact hpass)
  refine ⟨_, exec_init hidle hhang bus ident, ?_⟩
  rw [hload]
  change (initReads bus ident s).env = .ideal sn at hsensor
  generalize initReads bus ident s = r at hsensor hblock
  refine ⟨rfl, ?_, ?_, hsensor⟩
  · change { r.w with w7 := 0 } = sensorProm sn
    rw [hblock]
    rfl
  · change coeffsOf r.w = coeffsOf (sensorProm sn)
    rw [hblock]
    rfl

/-! ### MEASURE against the ideal sensor (R228) -/

theorem adcWord_rawBytes (v : Raw24) : adcWord (rawBytes v) = v := by
  have hv := v.isLt
  rw [rawBytes, adcWord_triple]
  apply BitVec.eq_of_toNat_eq
  simp only [BitVec.toNat_ofNat, BitVec.extractLsb'_toNat, Nat.shiftRight_eq_div_pow]
  omega

/-- The ideal sensor answers, at the resolution it knows, and can tell the commands of the cycle apart. -/
def SensorConverts (sn : Sensor) (s : State) : Prop := SensorAnswers sn s ∧ s.osr = s.cfg.osrOrd ∧ distinctCommands s.cfg

theorem sensorBytes_adcRead {cfg : Params} (h : distinctCommands cfg) (sn : Sensor) :
    sensorBytes cfg sn cfg.cmdAdcRead = rawBytes sn.adc := by
  obtain ⟨hprom, -⟩ := h
  have hfind : promIndices.find? (fun i => promrdByte cfg.promBase i = cfg.cmdAdcRead) = none := by
    simp [List.find?_eq_none, hprom]
  rw [sensorBytes, hfind]
  exact if_pos rfl

/-- A conversion command that sets ADC to `v` succeeds. -/
theorem SensorConverts.write {sn : Sensor} {s : State} (h : SensorConverts sn s) {cmd : Byte} {v : Raw24}
    (hwrite : sensorWrite s.cfg sn cmd = { sn with adc := v }) :
    SensorConverts { sn with adc := v } (transact (.busWrite cmd) s) ∧ (transact (.busWrite cmd) s).status = s.status := by
  obtain ⟨hanswers, hosr, hdistinct⟩ := h
  have hsensor := hanswers.write cmd
  rw [hwrite] at hsensor
  exact ⟨⟨hsensor, hosr, hdistinct⟩, by rw [transact_status, hanswers.ok, Bool.and_true]⟩

/-- R157: a temperature conversion sets ADC to the sensor's temperature. -/
theorem convStartT_ideal {sn : Sensor} {s : State} (h : SensorConverts sn s) :
    SensorConverts { sn with adc := sn.rawT } (convStartT s) ∧ (convStartT s).status = s.status := by
  have ⟨_, hosr, _⟩ := h
  have hwrite : sensorWrite s.cfg sn (convTByte s) = { sn with adc := sn.rawT } := by
    rw [convTByte, hosr]
    exact if_pos rfl
  exact h.write hwrite

/-- R162: a pressure conversion sets ADC to the sensor's pressure. -/
theorem convStartP_ideal {sn : Sensor} {s : State} (h : SensorConverts sn s) :
    SensorConverts { sn with adc := sn.rawP } (convStartP s) ∧ (convStartP s).status = s.status := by
  have ⟨_, hosr, _, hbytes⟩ := h
  have hwrite : sensorWrite s.cfg sn (convPByte s) = { sn with adc := sn.rawP } := by
    rw [convPByte, hosr, sensorWrite, if_neg hbytes.symm]
    exact if_pos rfl
  exact h.write hwrite

/-- R159: an ADC read latches what ADC holds, and leaves the sensor as it was. -/
theorem adcRead_ideal {sn : Sensor} {s : State} (h : SensorConverts sn s) (dest : Channel) :
    adcRead dest s = (transact (adcRequest s) s).latchRaw dest sn.adc ∧ SensorConverts sn (adcRead dest s) ∧
      (adcRead dest s).status = s.status := by
  obtain ⟨hanswers, hosr, hdistinct⟩ := h
  have hdata : (busAnswer (adcRequest s) s).data = rawBytes sn.adc := hanswers.data (sensorBytes_adcRead hdistinct sn) rfl
  have hsensor : SensorAnswers sn (transact (adcRequest s) s) := hanswers.read _ _
  refine ⟨by rw [adcRead, hdata, adcWord_rawBytes], ?_, ?_⟩
  · cases dest <;> exact ⟨hsensor, hosr, hdistinct⟩
  · rw [adcRead, latchRaw_status, transact_status, hanswers.ok, Bool.and_true]

/-- R157 to R160: the temperature phase reads the sensor's temperature. -/
theorem temperaturePhase_ideal {sn : Sensor} {s : State} (h : SensorConverts sn s) :
    SensorConverts { sn with adc := sn.rawT } (readT (waitT (convStartT s))) ∧
      (readT (waitT (convStartT s))).status = s.status ∧ (readT (waitT (convStartT s))).rawT = sn.rawT := by
  obtain ⟨hstart, hstatus⟩ := convStartT_ideal h
  have hwait : SensorConverts { sn with adc := sn.rawT } (waitT (convStartT s)) := hstart
  obtain ⟨hread, hafter, hstatus'⟩ := adcRead_ideal hwait .temperature
  exact ⟨hafter, hstatus'.trans hstatus, congrArg State.rawT hread⟩

/-- R162 to R164: the pressure phase reads the sensor's pressure and leaves `D_T` alone. -/
theorem pressurePhase_ideal {sn : Sensor} {s : State} (h : SensorConverts sn s) :
    SensorConverts { sn with adc := sn.rawP } (readP (waitP (convStartP s))) ∧
      (readP (waitP (convStartP s))).status = s.status ∧ (readP (waitP (convStartP s))).rawP = sn.rawP ∧
      (readP (waitP (convStartP s))).rawT = s.rawT := by
  obtain ⟨hstart, hstatus⟩ := convStartP_ideal h
  have hwait : SensorConverts { sn with adc := sn.rawP } (waitP (convStartP s)) := hstart
  obtain ⟨hread, hafter, hstatus'⟩ := adcRead_ideal hwait .pressure
  exact ⟨hafter, hstatus'.trans hstatus, congrArg State.rawP hread, rfl⟩

/-- R155: each raw value is read after its own conversion. -/
theorem convCycle_ideal {sn : Sensor} {s : State} (h : SensorConverts sn s) :
    (convCycle s).env = .ideal { sn with adc := sn.rawP } ∧ (convCycle s).status = true ∧
      (convCycle s).rawT = sn.rawT ∧ (convCycle s).rawP = sn.rawP := by
  have hstart : SensorConverts sn s.startStatus := h
  obtain ⟨htemperature, hstatus, hrawT⟩ := temperaturePhase_ideal hstart
  obtain ⟨⟨⟨henv, -⟩, -⟩, hstatus', hrawP, hrawT'⟩ := pressurePhase_ideal htemperature
  rw [convCycle]
  exact ⟨henv, hstatus'.trans hstatus, hrawT'.trans hrawT, hrawP⟩

/-- Settles O60: the cycle is `convCycle_ideal`, as CONV.SEQ and inside MEASURE, where COMP computes from its raw values and
the block's coefficients. -/
theorem idealSensorIsMeasured : Obligations.IdealSensorIsMeasured := by
  unfold Obligations.IdealSensorIsMeasured
  rintro s sn p t h ⟨hidle, hhang⟩ hinit henv hfails hosr hdistinct q
  have hconverts : SensorConverts sn s := ⟨⟨henv, hfails⟩, hosr, hdistinct⟩
  constructor
  · obtain ⟨-, hstatus, hrawT, hrawP⟩ := convCycle_ideal hconverts
    refine ⟨_, exec_convSeq hhang, ?_, hrawT, hrawP⟩
    rw [convCycle_eq, hstatus]
    rfl
  · have hconverts' : SensorConverts sn (measureStart p t s) := hconverts
    obtain ⟨henv', hstatus, hrawT, hrawP⟩ := convCycle_ideal hconverts'
    have hcoef : (convCycle (measureStart p t s)).coef = s.coef := by rw [convCycle_eq]; rfl
    have hcfg : (convCycle (measureStart p t s)).cfg = s.cfg := by rw [convCycle_eq]; rfl
    refine ⟨_, exec_measure hidle hhang hinit p t h, ?_⟩
    rw [measure_of_success hstatus, commitAndFill_eq]
    refine ⟨rfl, henv', ?_⟩
    rw [compensate_compRet, hrawT, hrawP, hcoef, hcfg]
    rfl

end Sys2Proof.Machine

/-!
What follows an exception (spec/60_exceptions.md). A call that never returns stops its own operation and no other (R253, U9):
the effect of an operation does not depend on which call hangs (`effect_hang`), so only `finish` has to be asked
(`finish_of_hang_inside`, `finish_of_hang_outside`). After a failed MEASURE (R256) the block still reads out what it held.
-/

namespace Sys2Proof.Machine

/-! ### A call that never returns (R253, U9) -/

/-- R253: an operation whose new events include the call that never returns does not end. -/
theorem finish_of_hang_inside {s t : State} {k : Nat} (hhang : s.hangAt = some k) (hold : s.trace.length ≤ k)
    (hnew : k < t.trace.length) : finish s t = .fault .collaboratorHang := by
  simp only [finish, hhang, if_pos (And.intro hold hnew)]

/-- U9: a call that never returns, but belongs to an earlier or a later operation, leaves this one to its end. -/
theorem finish_of_hang_outside {s t : State} {k : Nat} (hhang : s.hangAt = some k)
    (houtside : k < s.trace.length ∨ t.trace.length ≤ k) : finish s t = .next t := by
  have hnot : ¬ (s.trace.length ≤ k ∧ k < t.trace.length) := by omega
  simp only [finish, hhang, if_neg hnot]

/-- An admitted operation ends in the same effect whichever call hangs, unless that call is its own. -/
theorem exec_with_hangAt {i : Instr} {s : State} (hadmits : admits i s) (k : Option Nat) :
    exec i { s with hangAt := k } = finish { s with hangAt := k } { effect i s with hangAt := k } := by
  rw [exec_of_admits (admits_hang hadmits), effect_hang]

/-- Settles O10: an operation that completes when nothing hangs was admitted, so with a hang its end is `finish` of the same
effect (`exec_with_hangAt`), which asks only whether the call lies among its events. -/
theorem aCallThatNeverReturnsStopsItsOperation : Obligations.ACallThatNeverReturnsStopsItsOperation := by
  unfold Obligations.ACallThatNeverReturnsStopsItsOperation
  intro i s t k _ hexec
  obtain ⟨hadmits, rfl⟩ := exec_eq_next hexec
  rw [exec_with_hangAt hadmits]
  constructor
  · intro hold hnew
    exact finish_of_hang_inside rfl hold hnew
  · intro houtside
    exact finish_of_hang_outside rfl houtside

/-! ### Reading out after a failed MEASURE (R256) -/

/-- Settles O49: a failed MEASURE leaves the block in IDLE, ready, with the cache it had (O46), and there both GETEVT return the
cached values with true (O36). -/
theorem staleReadingIsReturnedAfterAFailedMeasure : Obligations.StaleReadingIsReturnedAfterAFailedMeasure := by
  unfold Obligations.StaleReadingIsReturnedAfterAFailedMeasure
  intro s u p t h hquiet hexec hret
  obtain ⟨⟨hidle, hinit⟩, -⟩ := exec_eq_next hexec
  obtain ⟨u', hexec', -, hframe⟩ := failedMeasureKeepsTheReading s p t h hquiet hinit
  cases hexec'.symm.trans hexec
  have hkept := hframe hret
  have hcache : u.cache = s.cache := by rw [hkept]
  have hidle' : u.seq = .idle := by rw [hkept]; exact hidle
  have hinit' : u.initialized = true := by rw [hkept]; exact hinit
  obtain ⟨hT, hP⟩ := getEventReturnsTheCachedReading u hidle' hinit'
  exact ⟨_, _, _, _, hT, hP, rfl, rfl, congrArg Reading.tRead hcache, congrArg Reading.pRead hcache, rfl, rfl⟩

end Sys2Proof.Machine

/-!
Power-on and waiting (spec/70_reset_and_hazards.md R280, R281), and the reading in binary32 (spec/43_compensation_engine.md R192).
Inside R194's range a hundredth is a normal number of the format and never halfway between two: its pattern is the rounded
significand (`centiSignificand`) added to the exponent field (`roundMagnitude_binary32`), and the decoded value is that
significand in units of its last place (`binary32Magnitude_of_bits`), also where the rounding carries.
-/

namespace Sys2Proof.Machine

open Sys2Proof.Safety

/-! ### Power-on and waiting (R280, R281) -/

/-- Settles O11: the three values stand in `State.reset`. -/
theorem powerOnState : Obligations.PowerOnState := ⟨rfl, rfl, rfl⟩

/-- Settles O52: after power-on the block is in IDLE and not ready (O11), where the invariant asks for nothing. -/
theorem powerOnMeetsTheInvariant : Obligations.PowerOnMeetsTheInvariant := by
  unfold Obligations.PowerOnMeetsTheInvariant
  obtain ⟨hidle, hnotReady, -⟩ := powerOnState
  exact inv_of_idle_not_ready hidle hnotReady

/-- R100, log 6: a nonzero `instanceId` of `2 ^ width` or more does not fit its width. -/
theorem init_not_wellFormed {width ident : Nat} (bus : Nat) (hpos : 0 < ident) (hwide : 2 ^ width ≤ ident) :
    (Instr.init bus ident).wellFormed width = false := by
  simp [Instr.wellFormed, fitsIn, hpos.ne', hwide]

/-- Settles O7: the definition of `step` at an empty queue, and at a call whose operand does not fit (`init_not_wellFormed`). -/
theorem stepWaitsForACall : Obligations.StepWaitsForACall := by
  unfold Obligations.StepWaitsForACall
  intro s hidle
  constructor
  · intro hempty
    simp only [step, hidle, hempty]
  · intro c rest bus ident hcall hdecode hpos hwide
    simp [step, hidle, hcall, hdecode, init_not_wellFormed bus hpos hwide]

/-! ### The nearest integer and the exponent of a quotient -/

/-- A quotient lies in one binade only, that of `floorLog2`. -/
theorem floorLog2_eq {num den : ℕ} {e : ℤ} (hnum : 0 < num) (hden : 0 < den)
    (hlow : (2 : ℚ) ^ e ≤ (num : ℚ) / den) (hhigh : (num : ℚ) / den < (2 : ℚ) ^ (e + 1)) : floorLog2 num den = e := by
  obtain ⟨hlow', hhigh'⟩ := floorLog2_spec hnum hden
  have h₁ : e < floorLog2 num den + 1 := (zpow_lt_zpow_iff_right₀ one_lt_two).mp (hlow.trans_lt hhigh')
  have h₂ : floorLog2 num den < e + 1 := (zpow_lt_zpow_iff_right₀ one_lt_two).mp (hlow'.trans_lt hhigh)
  omega

/-- Off a tie, `roundHalfEven` is nearer than one half; stated with the denominator and the 2 multiplied out. -/
theorem roundHalfEven_nearest {num den : ℕ} (hden : 0 < den) (hnoTie : 2 * (num % den) ≠ den) :
    2 * num < 2 * (den * roundHalfEven num den) + den ∧ 2 * (den * roundHalfEven num den) < 2 * num + den := by
  have hdiv := Nat.div_add_mod num den
  have hmod := Nat.mod_lt num hden
  unfold roundHalfEven
  dsimp only
  split
  · rw [Nat.mul_add_one]; omega
  · omega

/-! ### The binary32 pattern of a reading (R192, D17) -/

theorem roundMagnitude_le_infinity (eb mb num den : ℕ) : roundMagnitude eb mb num den ≤ (2 ^ eb - 1) * 2 ^ mb := by
  unfold roundMagnitude
  dsimp only
  split
  · exact Nat.zero_le _
  · split
    · exact le_rfl
    · omega

/-- The pattern is the sign bit over the magnitude, which does not reach it. -/
theorem roundCenti_binary32_toNat (c : Int) :
    (roundCenti .binary32 c).toNat = (if c < 0 then 2 ^ 31 else 0) + roundMagnitude 8 23 c.natAbs 100 := by
  have hmag := roundMagnitude_le_infinity 8 23 c.natAbs 100
  unfold roundCenti roundIeee
  rw [BitVec.toNat_ofNat]
  split <;> omega

theorem roundCenti_binary32_mod (c : Int) :
    (roundCenti .binary32 c).toNat % 2 ^ 31 = roundMagnitude 8 23 c.natAbs 100 := by
  have hmag := roundMagnitude_le_infinity 8 23 c.natAbs 100
  rw [roundCenti_binary32_toNat]
  split <;> omega

theorem roundCenti_binary32_lt (c : Int) : (roundCenti .binary32 c).toNat < 2 ^ 32 := by
  have hmag := roundMagnitude_le_infinity 8 23 c.natAbs 100
  rw [roundCenti_binary32_toNat]
  split <;> omega

theorem binary32Negative_roundCenti (c : Int) : binary32Negative (roundCenti .binary32 c) = decide (c < 0) := by
  have hmag := roundMagnitude_le_infinity 8 23 c.natAbs 100
  rw [binary32Negative, BitVec.getLsbD, Nat.testBit_eq_decide_div_mod_eq, roundCenti_binary32_toNat, decide_eq_decide]
  split <;> omega

/-- A pattern whose exponent field `k` is added to a significand with its leading bit, as `roundMagnitude` puts it together. A
significand of `2 ^ 24` has carried into the exponent field, and stands for the same number. -/
theorem binary32Magnitude_of_bits {v : FloatReg} {k q : ℕ} (hbits : v.toNat % 2 ^ 31 = k * 2 ^ 23 + q)
    (hlow : 2 ^ 23 ≤ q) (hhigh : q ≤ 2 ^ 24) : binary32Magnitude v = (q : ℚ) * (2 : ℚ) ^ ((k : ℤ) - 149) := by
  unfold binary32Magnitude
  dsimp only
  rcases hhigh.lt_or_eq with hlt | rfl
  · have hfraction : v.toNat % 2 ^ 23 = q - 2 ^ 23 := by omega
    have hexponent : v.toNat / 2 ^ 23 % 2 ^ 8 = k + 1 := by omega
    rw [hfraction, hexponent, if_neg k.succ_ne_zero, Nat.add_sub_cancel' hlow]
    congr 2
    push_cast
    ring
  · have hfraction : v.toNat % 2 ^ 23 = 0 := by omega
    have hexponent : v.toNat / 2 ^ 23 % 2 ^ 8 = k + 2 := by omega
    rw [hfraction, hexponent, if_neg (Nat.succ_ne_zero _),
      show ((k + 2 : ℕ) : ℤ) - 150 = (k : ℤ) - 149 + 1 by push_cast; ring, zpow_add_one₀ two_ne_zero]
    push_cast
    ring

/-! ### A hundredth of the range of R194, in its binade -/

/-- The binade of a hundredth of the range lies well inside the normal numbers of binary32. -/
theorem exponent_of_hundredth {n : ℕ} {e : ℤ} (hn : n < 2 ^ 27) (hlow : (2 : ℚ) ^ e ≤ (n : ℚ) / 100)
    (hhigh : (n : ℚ) / 100 < (2 : ℚ) ^ (e + 1)) : 0 < n ∧ -7 ≤ e ∧ e ≤ 20 := by
  have hpos : 0 < n := by
    have : (0 : ℚ) < n / 100 := lt_of_lt_of_le (by positivity) hlow
    exact_mod_cast (div_pos_iff_of_pos_right (by norm_num : (0 : ℚ) < 100)).mp this
  have hn1 : (1 : ℚ) ≤ n := by exact_mod_cast hpos
  have hn2 : (n : ℚ) < 2 ^ 27 := by exact_mod_cast hn
  have h₁ : (2 : ℚ) ^ (-7 : ℤ) < (2 : ℚ) ^ (e + 1) := lt_trans (by norm_num; linarith) hhigh
  have h₂ : (2 : ℚ) ^ e < (2 : ℚ) ^ (21 : ℤ) := lt_of_le_of_lt hlow (by norm_num; linarith)
  rw [zpow_lt_zpow_iff_right₀ one_lt_two] at h₁ h₂
  omega

/-- The hundredth in units of its last place, `2 ^ (e - 23)`. -/
theorem hundredth_eq_scaled (n : ℕ) {e : ℤ} (he : e ≤ 20) :
    (n : ℚ) / 100 = ((n * 2 ^ (23 - e).toNat : ℕ) : ℚ) / 100 * (2 : ℚ) ^ (e - 23) := by
  have hexp : (((23 - e).toNat : ℕ) : ℤ) = -(e - 23) := by omega
  have hone : (2 : ℚ) ^ (23 - e).toNat * (2 : ℚ) ^ (e - 23) = 1 := by
    rw [← zpow_natCast, hexp, zpow_neg_mul_zpow_self _ two_ne_zero]
  push_cast
  linear_combination (-(n : ℚ) / 100) * hone

theorem scaled_hundredth_bounds {n : ℕ} {e : ℤ} (he : e ≤ 20) (hlow : (2 : ℚ) ^ e ≤ (n : ℚ) / 100)
    (hhigh : (n : ℚ) / 100 < (2 : ℚ) ^ (e + 1)) :
    100 * 2 ^ 23 ≤ n * 2 ^ (23 - e).toNat ∧ n * 2 ^ (23 - e).toNat < 100 * 2 ^ 24 := by
  have hunit : (0 : ℚ) < (2 : ℚ) ^ (e - 23) := by positivity
  have h₁ : (2 : ℚ) ^ e = 2 ^ 23 * (2 : ℚ) ^ (e - 23) := by rw [zpow_sub₀ two_ne_zero]; norm_num; ring
  rw [hundredth_eq_scaled n he, h₁, mul_le_mul_iff_left₀ hunit, le_div_iff₀ (by norm_num)] at hlow
  rw [hundredth_eq_scaled n he, zpow_add_one₀ two_ne_zero, h₁, mul_right_comm, mul_lt_mul_iff_left₀ hunit,
    div_lt_iff₀ (by norm_num)] at hhigh
  constructor
  · rw [mul_comm]; exact_mod_cast hlow
  · refine lt_of_lt_of_eq (b := 2 ^ 23 * 2 * 100) (by exact_mod_cast hhigh) (by norm_num)

/-- No hundredth of the range lies halfway between two values of the format: it is scaled by 4 at least, and 50 is not a
multiple of 4. -/
theorem scaled_hundredth_no_tie (n : ℕ) {e : ℤ} (he : e ≤ 20) : 2 * (n * 2 ^ (23 - e).toNat % 100) ≠ 100 := by
  obtain ⟨j, hj⟩ : ∃ j, (23 - e).toNat = j + 2 := ⟨(23 - e).toNat - 2, by omega⟩
  have hscale : n * 2 ^ (23 - e).toNat = 4 * (n * 2 ^ j) := by rw [hj]; ring
  omega

/-- The significand of a reading: the hundredth in units of its last place, rounded to an integer. -/
def centiSignificand (n : ℕ) (e : ℤ) : ℕ := roundHalfEven (n * 2 ^ (23 - e).toNat) 100

theorem centiSignificand_nearest (n : ℕ) {e : ℤ} (he : e ≤ 20) :
    2 * (n * 2 ^ (23 - e).toNat) < 200 * centiSignificand n e + 100 ∧
      200 * centiSignificand n e < 2 * (n * 2 ^ (23 - e).toNat) + 100 := by
  have hnear := roundHalfEven_nearest (by norm_num) (scaled_hundredth_no_tie n he)
  unfold centiSignificand
  omega

/-- Such a hundredth is a normal number of the format, far below the infinity. -/
theorem roundMagnitude_binary32 {n : ℕ} {e : ℤ} (hn : 0 < n) (he : -7 ≤ e) (he' : e ≤ 20) (hexp : floorLog2 n 100 = e)
    (hq : centiSignificand n e ≤ 2 ^ 24) :
    roundMagnitude 8 23 n 100 = (e + 126).toNat * 2 ^ 23 + centiSignificand n e := by
  have hmax : max e (2 - 2 ^ (8 - 1)) = e := max_eq_left (by omega)
  have hden : (e - (23 : ℕ)).toNat = 0 := by omega
  have hnum : -(e - (23 : ℕ)) = 23 - e := by omega
  have hfield : e - (2 - 2 ^ (8 - 1)) = e + 126 := by omega
  unfold roundMagnitude
  dsimp only
  rw [if_neg hn.ne', hexp, hmax, hden, hnum, hfield, pow_zero, mul_one]
  change (if _ ≤ (e + 126).toNat * 2 ^ 23 + centiSignificand n e then _ else _) = _
  exact if_neg (by omega)

/-- The value of a reading, with the carry of its significand taken in. -/
theorem binary32Magnitude_roundCenti {c : Int} {e : ℤ} (hrange : c.natAbs < 2 ^ 27)
    (hlow : (2 : ℚ) ^ e ≤ (c.natAbs : ℚ) / 100) (hhigh : (c.natAbs : ℚ) / 100 < (2 : ℚ) ^ (e + 1)) :
    binary32Magnitude (roundCenti .binary32 c) = (centiSignificand c.natAbs e : ℚ) * (2 : ℚ) ^ (e - 23) := by
  obtain ⟨hpos, he, he'⟩ := exponent_of_hundredth hrange hlow hhigh
  obtain ⟨hscaled, hscaled'⟩ := scaled_hundredth_bounds he' hlow hhigh
  obtain ⟨hnear, hnear'⟩ := centiSignificand_nearest c.natAbs he'
  have hbits := roundMagnitude_binary32 hpos he he' (floorLog2_eq hpos (by norm_num) hlow hhigh) (by omega)
  rw [← roundCenti_binary32_mod] at hbits
  rw [binary32Magnitude_of_bits hbits (by omega) (by omega)]
  congr 2
  omega

/-- The rounded significand is less than one half off, so its value is less than half a unit in the last place off. -/
theorem abs_centiSignificand_sub_lt (n : ℕ) {e : ℤ} (he : e ≤ 20) :
    |(centiSignificand n e : ℚ) * (2 : ℚ) ^ (e - 23) - (n : ℚ) / 100| < (2 : ℚ) ^ (e - 24) := by
  obtain ⟨hnear, hnear'⟩ := centiSignificand_nearest n he
  qify at hnear hnear'
  have hunit : (0 : ℚ) < (2 : ℚ) ^ (e - 23) := by positivity
  have hhalf : (2 : ℚ) ^ (e - 24) = 1 / 2 * (2 : ℚ) ^ (e - 23) := by
    rw [show e - 23 = e - 24 + 1 by ring, zpow_add_one₀ two_ne_zero]; ring
  rw [hundredth_eq_scaled n he, hhalf, ← sub_mul, abs_mul, abs_of_pos hunit, mul_lt_mul_iff_left₀ hunit, abs_lt]
  push_cast
  constructor <;> linarith

/-- Settles O34: the sign and the zero are read off the pattern (`roundCenti_binary32_toNat`), and in its binade the reading is
the rounded significand (`binary32Magnitude_roundCenti`), less than half a unit off (`abs_centiSignificand_sub_lt`). -/
theorem binary32ReadingIsCorrectlyRounded : Obligations.Binary32ReadingIsCorrectlyRounded := by
  unfold Obligations.Binary32ReadingIsCorrectlyRounded
  intro c hrange
  refine ⟨roundCenti_binary32_lt c, binary32Negative_roundCenti c, ?_, ?_⟩
  · rintro rfl
    rfl
  · intro e hlow hhigh
    obtain ⟨-, -, he⟩ := exponent_of_hundredth hrange hlow hhigh
    rw [binary32Magnitude_roundCenti hrange hlow hhigh]
    exact abs_centiSignificand_sub_lt c.natAbs he

end Sys2Proof.Machine
